-- ==== Sys2Proof/Word.lean ====
section
/-! DEFINITION. The byte and the bit sequence: the two plain types every other file shares (spec/00_scope.md R10, R11). -/

namespace Sys2Proof

/-- An 8-bit byte of a memory (10_state.md R38). -/
abbrev Byte := BitVec 8

/-- Bits in stream order: the head is the bit of the smallest offset (00_scope.md R11). -/
abbrev Bits := List Bool

end Sys2Proof
end

