-- ==== Sys2Proof/Machine/Huffman.lean ====
section
/-! DEFINITION. Canonical Huffman tables: Build, the lookup, the search of Decode, and the two fixed tables
(spec/41_huffman.md). -/

namespace Sys2Proof.Machine

/-- One entry of a canonical table: the pair `(code, length)` and its symbol (10_state.md R36, 41_huffman.md R140). -/
structure CodeEntry where
  code : Nat
  len : Nat
  sym : Nat
  deriving DecidableEq, Repr

/-- A canonical table: a finite map from `(code, length)` to a symbol, its entries in the order Build assigns them. -/
abbrev HuffTable := List CodeEntry

/-- `blCount[len]`: how many symbols have that code length; zero lengths are not counted (41_huffman.md R142). -/
def blCount (lens : List Nat) (len : Nat) : Nat := if len = 0 then 0 else lens.count len

/-- `nextCode[len]` before any assignment: 0 for length 1, then `(nextCode[len-1] + blCount[len-1]) << 1` (R142). -/
def firstCode (lens : List Nat) : Nat → Nat
  | 0 => 0
  | n + 1 => if n = 0 then 0 else 2 * (firstCode lens n + blCount lens n)

/-- The sum of `2^(15 − L[s])` over the nonzero lengths (41_huffman.md R141). -/
def kraftSum (lens : List Nat) : Nat := (lens.map fun l => if l = 0 then 0 else 2 ^ (15 - l)).sum

/-- The assignment loop of Build: symbols in increasing order, `next` holding `nextCode[0..15]` (R142). -/
def assignCodes (next : List Nat) (sym : Nat) : List Nat → HuffTable
  | [] => []
  | l :: ls =>
    if l = 0 then assignCodes next (sym + 1) ls
    else ⟨next.getD l 0, l, sym⟩ :: assignCodes (next.set l (next.getD l 0 + 1)) (sym + 1) ls

/-- `Build(L, M)` (41_huffman.md R141, R142): `none` is `InvalidCodeLengths`. The accepted lengths are exactly those whose
sum is `2^15`; an all-zero array has the sum 0 and is refused with the under-subscribed ones. -/
def build (lens : List Nat) : Option HuffTable :=
  if kraftSum lens = 2 ^ 15 then some (assignCodes ((List.range 16).map (firstCode lens)) 0 lens) else none

/-- The symbol a pair `(code, length)` maps to, if the table has the pair. -/
def lookupCode (t : HuffTable) (code len : Nat) : Option Nat :=
  (t.find? fun e => e.code == code && e.len == len).map CodeEntry.sym

/-- The outcome of a Decode search (41_huffman.md R146, R147): the symbol with its code length and the bits after it; the
end of the data after `n` bits; or 15 bits without a match. -/
inductive Search where
  | found (sym n : Nat) (rest : Bits)
  | endOfData (n : Nat)
  | noMatch (n : Nat)
  deriving DecidableEq, Repr

/-- The loop of Decode: `n` bits read so far as `code`, `fuel` more allowed; one bit a turn,
`code <- (code << 1) | bit`, first match wins (41_huffman.md R146). -/
def searchCode (t : HuffTable) : Nat → Nat → Nat → Bits → Search
  | 0, _, n, _ => .noMatch n
  | _ + 1, _, n, [] => .endOfData n
  | fuel + 1, code, n, b :: bs =>
    match lookupCode t (2 * code + b.toNat) (n + 1) with
    | some sym => .found sym (n + 1) bs
    | none => searchCode t fuel (2 * code + b.toNat) (n + 1) bs

/-- `Decode(T)` on the bits from the cursor on (41_huffman.md R146). -/
def decodeSymbol (t : HuffTable) (bs : Bits) : Search := searchCode t 15 0 0 bs

/-- The length array of the fixed literal/length code over symbols 0..287 (41_huffman.md R150, 90_conflicts.md C1). -/
def fixLitLengths : List Nat :=
  List.replicate 144 8 ++ List.replicate 112 9 ++ List.replicate 24 7 ++ List.replicate 8 8

/-- `FIX_LIT` (41_huffman.md R150): 0–143 → 0x30.., 144–255 → 0x190.., 256–279 → 0x00.., 280–287 → 0xC0... -/
def fixLit : HuffTable :=
  (List.range 144).map (fun i => ⟨0x30 + i, 8, i⟩) ++ (List.range 112).map (fun i => ⟨0x190 + i, 9, 144 + i⟩) ++
    (List.range 24).map (fun i => ⟨i, 7, 256 + i⟩) ++ (List.range 8).map fun i => ⟨0xC0 + i, 8, 280 + i⟩

/-- `FIX_DIST` (41_huffman.md R151): the 5-bit identity table for 0..31. -/
def fixDist : HuffTable := (List.range 32).map fun i => ⟨i, 5, i⟩

end Sys2Proof.Machine
end

