-- ==== Sys2Proof/Machine/Operands.lean ====
section
/-! DEFINITION. Operand forms: the constant tables and the field formulas by which an element's operands are assembled
from its bits (spec/30_encoding.md §2, 42_zlib_envelope.md R172, 44_symbols.md R237, R238). -/

namespace Sys2Proof.Machine

/-- `LEN_BASE` (44_symbols.md R237), indexed by symbol − 257. -/
def lenBaseTable : List Nat :=
  [3, 4, 5, 6, 7, 8, 9, 10, 11, 13, 15, 17, 19, 23, 27, 31, 35, 43, 51, 59, 67, 83, 99, 115, 131, 163, 195, 227, 258]

/-- `LEN_EXTRA` (44_symbols.md R237), indexed by symbol − 257. -/
def lenExtraTable : List Nat :=
  [0, 0, 0, 0, 0, 0, 0, 0, 1, 1, 1, 1, 2, 2, 2, 2, 3, 3, 3, 3, 4, 4, 4, 4, 5, 5, 5, 5, 0]

/-- `DIST_BASE` (44_symbols.md R238), indexed by distance symbol. -/
def distBaseTable : List Nat :=
  [1, 2, 3, 4, 5, 7, 9, 13, 17, 25, 33, 49, 65, 97, 129, 193, 257, 385, 513, 769, 1025, 1537, 2049, 3073, 4097, 6145,
    8193, 12289, 16385, 24577]

/-- `DIST_EXTRA` (44_symbols.md R238), indexed by distance symbol. -/
def distExtraTable : List Nat :=
  [0, 0, 0, 0, 1, 1, 2, 2, 3, 3, 4, 4, 5, 5, 6, 6, 7, 7, 8, 8, 9, 9, 10, 10, 11, 11, 12, 12, 13, 13]

/-- `LEN_BASE[sym − 257]`. -/
def lenBase (sym : Nat) : Nat := lenBaseTable.getD (sym - 257) 0

/-- The number of extra bits after a literal/length symbol: `LEN_EXTRA[sym − 257]` for a length symbol, 0 for a literal,
for end-of-block and for 286 and 287 (44_symbols.md R230, R237, R240). -/
def lenExtra (sym : Nat) : Nat := lenExtraTable.getD (sym - 257) 0

/-- `DIST_BASE[sym]`. -/
def distBase (sym : Nat) : Nat := distBaseTable.getD sym 0

/-- The number of extra bits after a distance symbol: `DIST_EXTRA[sym]`, and 0 for 30 and 31, whose error comes before any
extra bit (44_symbols.md R238, R241). -/
def distExtra (sym : Nat) : Nat := distExtraTable.getD sym 0

/-- The number of extra bits after a code-length symbol (30_encoding.md R93). `hasPrev` is false while no code length of
the block has been decoded: symbol 16 then raises before its extra bits are read (43_blocks.md R203). -/
def clExtra (hasPrev : Bool) (sym : Nat) : Nat :=
  if sym = 16 then (if hasPrev then 2 else 0) else if sym = 17 then 3 else if sym = 18 then 7 else 0

/-- `ORDER`: the permutation in which a dynamic header sends the code-length-code lengths (10_state.md R34). -/
def order : List Nat := [16, 17, 18, 0, 8, 7, 9, 6, 10, 5, 11, 4, 12, 3, 13, 2, 14, 1, 15]

/-- `CLL[0..18]` after a header: all 0, then `CLL[ORDER[i]]` set for each length read (43_blocks.md R200). -/
def cllOf (cl : List (BitVec 3)) : List (BitVec 3) :=
  (order.zip cl).foldl (fun acc p => acc.set p.1 p.2) (List.replicate 19 0)

/-- `HLIT = ReadBits(5) + 257` (30_encoding.md R93). -/
def hlitOf (h : BitVec 5) : Nat := h.toNat + 257

/-- `HDIST = ReadBits(5) + 1` (30_encoding.md R93). -/
def hdistOf (d : BitVec 5) : Nat := d.toNat + 1

/-- `HCLEN = ReadBits(4) + 4` (30_encoding.md R93). -/
def hclenOf (c : BitVec 4) : Nat := c.toNat + 4

/-- CM = CMF & 0xF (42_zlib_envelope.md R172). -/
def cmOf (cmf : Byte) : BitVec 4 := cmf.extractLsb' 0 4

/-- CINFO = CMF >> 4. -/
def cinfoOf (cmf : Byte) : BitVec 4 := cmf.extractLsb' 4 4

/-- FCHECK = FLG & 0x1F. -/
def fcheckOf (flg : Byte) : BitVec 5 := flg.extractLsb' 0 5

/-- FDICT = (FLG >> 5) & 1. -/
def fdictOf (flg : Byte) : BitVec 1 := flg.extractLsb' 5 1

/-- FLEVEL = FLG >> 6. -/
def flevelOf (flg : Byte) : BitVec 2 := flg.extractLsb' 6 2

/-- A 16-bit little-endian value, low byte first (20_memory.md R72). -/
def le16 (lo hi : Byte) : BitVec 16 := hi ++ lo

/-- A 32-bit big-endian value, most significant byte first (20_memory.md R72). -/
def be32 (b0 b1 b2 b3 : Byte) : BitVec 32 := b0 ++ b1 ++ b2 ++ b3

/-- The byte a fixed literal row stands for (30_encoding.md R98): symbol = code − 0x30, or code − 0x190 + 144. -/
def lit8aByte (x : BitVec 4) : Byte := BitVec.ofNat 8 x.toNat

/-- Row LIT8B: symbols 16..79. -/
def lit8bByte (x : BitVec 6) : Byte := BitVec.ofNat 8 (16 + x.toNat)

/-- Row LIT8C: symbols 80..143. -/
def lit8cByte (x : BitVec 6) : Byte := BitVec.ofNat 8 (80 + x.toNat)

/-- Row LIT9A: symbols 144..159. -/
def lit9aByte (x : BitVec 4) : Byte := BitVec.ofNat 8 (144 + x.toNat)

/-- Row LIT9B: symbols 160..191. -/
def lit9bByte (x : BitVec 5) : Byte := BitVec.ofNat 8 (160 + x.toNat)

/-- Row LIT9C: symbols 192..255. -/
def lit9cByte (x : BitVec 6) : Byte := BitVec.ofNat 8 (192 + x.toNat)

/-- The code length of a fixed length symbol: 7 bits up to 279, 8 bits from 280 (30_encoding.md R98). -/
def fixedLenCodeBits (sym : Nat) : Nat := if sym < 280 then 7 else 8

end Sys2Proof.Machine
end

