-- ==== Sys2Proof/Syntax.lean ====
section
/-! DEFINITION. The syntax of the core's instructions: one constructor of `Instr` for each row of spec/opcode_table.json
(spec/30_encoding.md R91, R97 to R101). -/

namespace Sys2Proof

/-- The length half of a MATCH, as its distance half needs it (44_symbols.md R236): the length symbol, the value of its
extra bits, and how many bits the half took, code and extra bits together. -/
structure LenPart where
  sym : Nat
  extra : Nat
  bits : Nat
  deriving DecidableEq, Repr

/-- The distance half of a MATCH (44_symbols.md R236): the distance symbol, the length of its code and the value of its
extra bits. -/
structure DistPart where
  sym : Nat
  codeBits : Nat
  extra : Nat
  deriving DecidableEq, Repr

/-- The elements of the stream (30_encoding.md R91), one constructor for each row of the opcode table.
A row of a dynamic table carries its code length `n`, which the table and not the row fixes (R97).
A length row is the head of a MATCH, whose distance half stands next in the stream; a distance row is that half and
carries the length half `m` it completes (R236, log 6). -/
inductive Instr where
  | zhdr (cmf flg : BitVec 8)
  | bhdrStored (final : Bool)
  | bhdrFixed (final : Bool)
  | bhdrDynamic (final : Bool)
  | bhdrReserved (final : Bool)
  | sthdr (len nlen : BitVec 16)
  | stbyte (b : BitVec 8)
  | dynhdr (h d : BitVec 5) (c : BitVec 4) (cl : List (BitVec 3))
  | clLen (n : Nat) (v : BitVec 4)
  | cl16 (n : Nat) (e : BitVec 2)
  | cl17 (n : Nat) (e : BitVec 3)
  | cl18 (n : Nat) (e : BitVec 7)
  | lit8a (x : BitVec 4)
  | lit8b (x : BitVec 6)
  | lit8c (x : BitVec 6)
  | lit9a (x : BitVec 4)
  | lit9b (x : BitVec 5)
  | lit9c (x : BitVec 6)
  | eob
  | len257
  | len258
  | len259
  | len260
  | len261
  | len262
  | len263
  | len264
  | len265 (le : BitVec 1)
  | len266 (le : BitVec 1)
  | len267 (le : BitVec 1)
  | len268 (le : BitVec 1)
  | len269 (le : BitVec 2)
  | len270 (le : BitVec 2)
  | len271 (le : BitVec 2)
  | len272 (le : BitVec 2)
  | len273 (le : BitVec 3)
  | len274 (le : BitVec 3)
  | len275 (le : BitVec 3)
  | len276 (le : BitVec 3)
  | len277 (le : BitVec 4)
  | len278 (le : BitVec 4)
  | len279 (le : BitVec 4)
  | len280 (le : BitVec 4)
  | len281 (le : BitVec 5)
  | len282 (le : BitVec 5)
  | len283 (le : BitVec 5)
  | len284 (le : BitVec 5)
  | len285
  | badLit286
  | badLit287
  | dist0 (m : LenPart)
  | dist1 (m : LenPart)
  | dist2 (m : LenPart)
  | dist3 (m : LenPart)
  | dist4 (m : LenPart) (de : BitVec 1)
  | dist5 (m : LenPart) (de : BitVec 1)
  | dist6 (m : LenPart) (de : BitVec 2)
  | dist7 (m : LenPart) (de : BitVec 2)
  | dist8 (m : LenPart) (de : BitVec 3)
  | dist9 (m : LenPart) (de : BitVec 3)
  | dist10 (m : LenPart) (de : BitVec 4)
  | dist11 (m : LenPart) (de : BitVec 4)
  | dist12 (m : LenPart) (de : BitVec 5)
  | dist13 (m : LenPart) (de : BitVec 5)
  | dist14 (m : LenPart) (de : BitVec 6)
  | dist15 (m : LenPart) (de : BitVec 6)
  | dist16 (m : LenPart) (de : BitVec 7)
  | dist17 (m : LenPart) (de : BitVec 7)
  | dist18 (m : LenPart) (de : BitVec 8)
  | dist19 (m : LenPart) (de : BitVec 8)
  | dist20 (m : LenPart) (de : BitVec 9)
  | dist21 (m : LenPart) (de : BitVec 9)
  | dist22 (m : LenPart) (de : BitVec 10)
  | dist23 (m : LenPart) (de : BitVec 10)
  | dist24 (m : LenPart) (de : BitVec 11)
  | dist25 (m : LenPart) (de : BitVec 11)
  | dist26 (m : LenPart) (de : BitVec 12)
  | dist27 (m : LenPart) (de : BitVec 12)
  | dist28 (m : LenPart) (de : BitVec 13)
  | dist29 (m : LenPart) (de : BitVec 13)
  | badDist30 (m : LenPart)
  | badDist31 (m : LenPart)
  | litDyn (n : Nat) (b : BitVec 8)
  | eobDyn (n : Nat)
  | matchDyn (n sym le : Nat)
  | distDyn (m : LenPart) (n sym de : Nat)
  | badLitDyn (n sym : Nat)
  | badDistDyn (m : LenPart) (n sym : Nat)
  | ztrl (a : BitVec 32)
  deriving DecidableEq, Repr

end Sys2Proof
end

