-- ==== Sys2Proof/WellFormed.lean ====
section
/-! DEFINITION. Which instruction terms stand for an element some stream can hold (spec/30_encoding.md R92, R97;
41_huffman.md R140; 44_symbols.md R237, R238). -/

namespace Sys2Proof

open Machine (lenExtra distExtra)

/-- A code length of a canonical table is 1..15 (41_huffman.md R140). -/
def codeLenOk (n : Nat) : Bool := decide (1 ≤ n) && decide (n ≤ 15)

/-- A code length of the code-length code is 1..7: its lengths are 3-bit fields (30_encoding.md R92). -/
def clCodeLenOk (n : Nat) : Bool := decide (1 ≤ n) && decide (n ≤ 7)

/-- A length half: a length symbol 257..285, extra bits of that symbol's width, and a size that leaves a code of 1..15
bits beside them. -/
def LenPart.ok (m : LenPart) : Bool :=
  decide (257 ≤ m.sym) && decide (m.sym ≤ 285) && decide (m.extra < 2 ^ lenExtra m.sym) &&
    decide (lenExtra m.sym + 1 ≤ m.bits) && decide (m.bits ≤ lenExtra m.sym + 15)

/-- The well-formedness check, one line for each constructor. -/
def wellFormed : Instr → Bool
  | .zhdr _ _ => true
  | .bhdrStored _ => true
  | .bhdrFixed _ => true
  | .bhdrDynamic _ => true
  | .bhdrReserved _ => true
  | .sthdr _ _ => true
  | .stbyte _ => true
  | .dynhdr _ _ c cl => decide (cl.length = Machine.hclenOf c)
  | .clLen n _ => clCodeLenOk n
  | .cl16 n _ => clCodeLenOk n
  | .cl17 n _ => clCodeLenOk n
  | .cl18 n _ => clCodeLenOk n
  | .lit8a _ => true
  | .lit8b _ => true
  | .lit8c _ => true
  | .lit9a _ => true
  | .lit9b _ => true
  | .lit9c _ => true
  | .eob => true
  | .len257 => true
  | .len258 => true
  | .len259 => true
  | .len260 => true
  | .len261 => true
  | .len262 => true
  | .len263 => true
  | .len264 => true
  | .len265 _ => true
  | .len266 _ => true
  | .len267 _ => true
  | .len268 _ => true
  | .len269 _ => true
  | .len270 _ => true
  | .len271 _ => true
  | .len272 _ => true
  | .len273 _ => true
  | .len274 _ => true
  | .len275 _ => true
  | .len276 _ => true
  | .len277 _ => true
  | .len278 _ => true
  | .len279 _ => true
  | .len280 _ => true
  | .len281 _ => true
  | .len282 _ => true
  | .len283 _ => true
  | .len284 _ => true
  | .len285 => true
  | .badLit286 => true
  | .badLit287 => true
  | .dist0 m => m.ok
  | .dist1 m => m.ok
  | .dist2 m => m.ok
  | .dist3 m => m.ok
  | .dist4 m _ => m.ok
  | .dist5 m _ => m.ok
  | .dist6 m _ => m.ok
  | .dist7 m _ => m.ok
  | .dist8 m _ => m.ok
  | .dist9 m _ => m.ok
  | .dist10 m _ => m.ok
  | .dist11 m _ => m.ok
  | .dist12 m _ => m.ok
  | .dist13 m _ => m.ok
  | .dist14 m _ => m.ok
  | .dist15 m _ => m.ok
  | .dist16 m _ => m.ok
  | .dist17 m _ => m.ok
  | .dist18 m _ => m.ok
  | .dist19 m _ => m.ok
  | .dist20 m _ => m.ok
  | .dist21 m _ => m.ok
  | .dist22 m _ => m.ok
  | .dist23 m _ => m.ok
  | .dist24 m _ => m.ok
  | .dist25 m _ => m.ok
  | .dist26 m _ => m.ok
  | .dist27 m _ => m.ok
  | .dist28 m _ => m.ok
  | .dist29 m _ => m.ok
  | .badDist30 m => m.ok
  | .badDist31 m => m.ok
  | .litDyn n _ => codeLenOk n
  | .eobDyn n => codeLenOk n
  | .matchDyn n sym le =>
    codeLenOk n && decide (257 ≤ sym) && decide (sym ≤ 285) && decide (le < 2 ^ lenExtra sym)
  | .distDyn m n sym de => m.ok && codeLenOk n && decide (sym < 30) && decide (de < 2 ^ distExtra sym)
  | .badLitDyn n sym => codeLenOk n && decide (286 ≤ sym) && decide (sym ≤ 287)
  | .badDistDyn m n sym => m.ok && codeLenOk n && decide (30 ≤ sym) && decide (sym ≤ 31)
  | .ztrl _ => true

end Sys2Proof
end

