-- ==== Sys2Proof/Decode.lean ====
section
/-! DEFINITION. The decoder, from the bits at the cursor to an instruction or a refusal by name, and the encoder
(spec/30_encoding.md R91 to R103, 40_bitreader.md R121 to R128, 41_huffman.md R146). -/

namespace Sys2Proof

open Machine

/-! ## The reader primitives on a bit sequence -/

/-- `ReadBits(n)`: the first bit read is the result's bit 0; `none` when fewer than `n` bits are left, and then nothing
is consumed (40_bitreader.md R121, R122, R128). -/
def takeBits : Nat → Bits → Option (Nat × Bits)
  | 0, bs => some (0, bs)
  | _ + 1, [] => none
  | n + 1, b :: bs =>
    match takeBits n bs with
    | some (v, rest) => some (b.toNat + 2 * v, rest)
    | none => none

/-- `n` whole bytes of an aligned sequence, in address order; `none` when fewer are left (40_bitreader.md R125). -/
def takeBytes : Nat → Bits → Option (List Byte × Bits)
  | 0, bs => some ([], bs)
  | n + 1, bs =>
    match takeBits 8 bs with
    | none => none
    | some (v, rest) =>
      match takeBytes n rest with
      | some (l, rest') => some (BitVec.ofNat 8 v :: l, rest')
      | none => none

/-- Up to `n` three-bit lengths, in stream order: those that could be read (43_blocks.md R200). -/
def takeLens : Nat → Bits → List (BitVec 3)
  | 0, _ => []
  | n + 1, bs =>
    match takeBits 3 bs with
    | some (v, rest) => BitVec.ofNat 3 v :: takeLens n rest
    | none => []

/-- A code followed by its extra bits: `Decode(T)`, then `ReadBits(extraOf(symbol))` (30_encoding.md R93, R94, R96). -/
inductive Coded where
  | coded (sym n extra : Nat)
  | endOfData (n : Nat)
  | noMatch (n : Nat)
  deriving DecidableEq, Repr

/-- Read a code of `t` and the extra bits of its symbol. When the extra bits are not all there, the code stays consumed
(40_bitreader.md R128). -/
def readCoded (t : HuffTable) (extraOf : Nat → Nat) (bs : Bits) : Coded :=
  match decodeSymbol t bs with
  | .endOfData n => .endOfData n
  | .noMatch n => .noMatch n
  | .found sym n rest =>
    match takeBits (extraOf sym) rest with
    | some (e, _) => .coded sym n e
    | none => .endOfData n

/-! ## The contexts -/

/-- What the core expects at the cursor: the element class that ST selects, with what its decoding depends on: the pad to
the byte boundary of an aligned element, the tables of a coded one, whether a code length has been decoded
before (log 9), and the length half before a distance half. What a bit sequence means depends on the context (log 7). -/
inductive Ctx where
  | zhdr (pad : Nat)
  | bhdr
  | sthdr (pad : Nat)
  | stbyte (pad : Nat)
  | dynhdr
  | clEntry (t : HuffTable) (hasPrev : Bool)
  | symFixed
  | symDyn (t : HuffTable)
  | distFixed (m : LenPart)
  | distDyn (t : HuffTable) (m : LenPart)
  | ztrl (pad : Nat)
  deriving DecidableEq, Repr

/-- The fields a truncated element had already read when the data ended; their registers keep them
(00_scope.md R12, 43_blocks.md R186, R192, R200). -/
inductive PartialRead where
  | nothing
  | bfinal (f : Bool)
  | slen (v : BitVec 16)
  | hlit (h : BitVec 5)
  | hlitHdist (h d : BitVec 5)
  | clls (h d : BitVec 5) (c : BitVec 4) (cl : List (BitVec 3))
  deriving DecidableEq, Repr

/-- What the bits at the cursor are: an element and how many bits it takes (pad included); or the end of the data after
`n` bits were consumed (`UnexpectedEndOfData`); or `n` bits of a code that no element has (`InvalidHuffmanCode`). -/
inductive Decoded where
  | elem (i : Instr) (n : Nat)
  | endOfData (p : PartialRead) (n : Nat)
  | unusable (n : Nat)
  deriving DecidableEq, Repr

/-! ## From a symbol to its row -/

/-- The row of a fixed literal symbol 0..255 (30_encoding.md R98). -/
def fixedLitInstr (sym : Nat) : Instr :=
  if sym < 16 then .lit8a (BitVec.ofNat 4 sym)
  else if sym < 80 then .lit8b (BitVec.ofNat 6 (sym - 16))
  else if sym < 144 then .lit8c (BitVec.ofNat 6 (sym - 80))
  else if sym < 160 then .lit9a (BitVec.ofNat 4 (sym - 144))
  else if sym < 192 then .lit9b (BitVec.ofNat 5 (sym - 160))
  else .lit9c (BitVec.ofNat 6 (sym - 192))

/-- The row of a fixed length symbol 257..285 with its extra value (30_encoding.md R98). -/
def fixedLenInstr (sym le : Nat) : Instr :=
  match sym - 257 with
  | 0 => .len257
  | 1 => .len258
  | 2 => .len259
  | 3 => .len260
  | 4 => .len261
  | 5 => .len262
  | 6 => .len263
  | 7 => .len264
  | 8 => .len265 (BitVec.ofNat 1 le)
  | 9 => .len266 (BitVec.ofNat 1 le)
  | 10 => .len267 (BitVec.ofNat 1 le)
  | 11 => .len268 (BitVec.ofNat 1 le)
  | 12 => .len269 (BitVec.ofNat 2 le)
  | 13 => .len270 (BitVec.ofNat 2 le)
  | 14 => .len271 (BitVec.ofNat 2 le)
  | 15 => .len272 (BitVec.ofNat 2 le)
  | 16 => .len273 (BitVec.ofNat 3 le)
  | 17 => .len274 (BitVec.ofNat 3 le)
  | 18 => .len275 (BitVec.ofNat 3 le)
  | 19 => .len276 (BitVec.ofNat 3 le)
  | 20 => .len277 (BitVec.ofNat 4 le)
  | 21 => .len278 (BitVec.ofNat 4 le)
  | 22 => .len279 (BitVec.ofNat 4 le)
  | 23 => .len280 (BitVec.ofNat 4 le)
  | 24 => .len281 (BitVec.ofNat 5 le)
  | 25 => .len282 (BitVec.ofNat 5 le)
  | 26 => .len283 (BitVec.ofNat 5 le)
  | 27 => .len284 (BitVec.ofNat 5 le)
  | _ => .len285

/-- The row of a fixed distance symbol 0..31 with its extra value, completing the length half `m` (30_encoding.md R99). -/
def fixedDistInstr (m : LenPart) (sym de : Nat) : Instr :=
  match sym with
  | 0 => .dist0 m
  | 1 => .dist1 m
  | 2 => .dist2 m
  | 3 => .dist3 m
  | 4 => .dist4 m (BitVec.ofNat 1 de)
  | 5 => .dist5 m (BitVec.ofNat 1 de)
  | 6 => .dist6 m (BitVec.ofNat 2 de)
  | 7 => .dist7 m (BitVec.ofNat 2 de)
  | 8 => .dist8 m (BitVec.ofNat 3 de)
  | 9 => .dist9 m (BitVec.ofNat 3 de)
  | 10 => .dist10 m (BitVec.ofNat 4 de)
  | 11 => .dist11 m (BitVec.ofNat 4 de)
  | 12 => .dist12 m (BitVec.ofNat 5 de)
  | 13 => .dist13 m (BitVec.ofNat 5 de)
  | 14 => .dist14 m (BitVec.ofNat 6 de)
  | 15 => .dist15 m (BitVec.ofNat 6 de)
  | 16 => .dist16 m (BitVec.ofNat 7 de)
  | 17 => .dist17 m (BitVec.ofNat 7 de)
  | 18 => .dist18 m (BitVec.ofNat 8 de)
  | 19 => .dist19 m (BitVec.ofNat 8 de)
  | 20 => .dist20 m (BitVec.ofNat 9 de)
  | 21 => .dist21 m (BitVec.ofNat 9 de)
  | 22 => .dist22 m (BitVec.ofNat 10 de)
  | 23 => .dist23 m (BitVec.ofNat 10 de)
  | 24 => .dist24 m (BitVec.ofNat 11 de)
  | 25 => .dist25 m (BitVec.ofNat 11 de)
  | 26 => .dist26 m (BitVec.ofNat 12 de)
  | 27 => .dist27 m (BitVec.ofNat 12 de)
  | 28 => .dist28 m (BitVec.ofNat 13 de)
  | 29 => .dist29 m (BitVec.ofNat 13 de)
  | 30 => .badDist30 m
  | _ => .badDist31 m

/-- The row of a fixed literal/length symbol 0..287 (44_symbols.md R230). -/
def fixedSymInstr (sym le : Nat) : Instr :=
  if sym < 256 then fixedLitInstr sym
  else if sym = 256 then .eob
  else if sym ≤ 285 then fixedLenInstr sym le
  else if sym = 286 then .badLit286
  else .badLit287

/-- The row of a dynamic literal/length symbol with its code length (44_symbols.md R230). -/
def dynSymInstr (n sym le : Nat) : Instr :=
  if sym < 256 then .litDyn n (BitVec.ofNat 8 sym)
  else if sym = 256 then .eobDyn n
  else if sym ≤ 285 then .matchDyn n sym le
  else .badLitDyn n sym

/-- The row of a dynamic distance symbol with its code length (44_symbols.md R236, R241). -/
def dynDistInstr (m : LenPart) (n sym de : Nat) : Instr :=
  if sym < 30 then .distDyn m n sym de else .badDistDyn m n sym

/-- The row of a code-length symbol with its code length and extra value (43_blocks.md R202 to R204). -/
def clInstr (n sym e : Nat) : Option Instr :=
  if sym < 16 then some (.clLen n (BitVec.ofNat 4 sym))
  else if sym = 16 then some (.cl16 n (BitVec.ofNat 2 e))
  else if sym = 17 then some (.cl17 n (BitVec.ofNat 3 e))
  else if sym = 18 then some (.cl18 n (BitVec.ofNat 7 e))
  else none

/-- A block header by its BTYPE (43_blocks.md R186 to R188). -/
def bhdrInstr (final : Bool) (btype : Nat) : Instr :=
  match btype with
  | 0 => .bhdrStored final
  | 1 => .bhdrFixed final
  | 2 => .bhdrDynamic final
  | _ => .bhdrReserved final

/-- Finish a coded element: build its row and count its bits. -/
def finishCoded (extraOf : Nat → Nat) (mk : Nat → Nat → Nat → Option Instr) : Coded → Decoded
  | .endOfData n => .endOfData .nothing n
  | .noMatch n => .unusable n
  | .coded sym n e =>
    match mk n sym e with
    | some i => .elem i (n + extraOf sym)
    | none => .unusable n

/-! ## The decoder -/

/-- The zlib header: `ReadBytes(2)` (42_zlib_envelope.md R171). -/
def decodeZhdr (pad : Nat) (bs : Bits) : Decoded :=
  match takeBytes 2 (bs.drop pad) with
  | none => .endOfData .nothing 0
  | some (h, _) => .elem (.zhdr (h.getD 0 0) (h.getD 1 0)) (pad + 16)

/-- The block header: `ReadBits(1)`, then `ReadBits(2)` (43_blocks.md R186). -/
def decodeBhdr (bs : Bits) : Decoded :=
  match takeBits 1 bs with
  | none => .endOfData .nothing 0
  | some (f, rest) =>
    match takeBits 2 rest with
    | none => .endOfData (.bfinal (f == 1)) 1
    | some (t, _) => .elem (bhdrInstr (f == 1) t) 3

/-- The stored header: `ReadBytes(2)` for LEN, then `ReadBytes(2)` for NLEN (43_blocks.md R192). -/
def decodeSthdr (pad : Nat) (bs : Bits) : Decoded :=
  match takeBytes 2 (bs.drop pad) with
  | none => .endOfData .nothing 0
  | some (a, rest) =>
    let len := le16 (a.getD 0 0) (a.getD 1 0)
    match takeBytes 2 rest with
    | none => .endOfData (.slen len) (pad + 16)
    | some (b, _) => .elem (.sthdr len (le16 (b.getD 0 0) (b.getD 1 0))) (pad + 32)

/-- One stored byte: `ReadBytes(1)` (43_blocks.md R194). -/
def decodeStbyte (pad : Nat) (bs : Bits) : Decoded :=
  match takeBytes 1 (bs.drop pad) with
  | none => .endOfData .nothing 0
  | some (v, _) => .elem (.stbyte (v.getD 0 0)) (pad + 8)

/-- The trailer: `ReadBytes(4)`, big-endian (42_zlib_envelope.md R178). -/
def decodeZtrl (pad : Nat) (bs : Bits) : Decoded :=
  match takeBytes 4 (bs.drop pad) with
  | none => .endOfData .nothing 0
  | some (t, _) => .elem (.ztrl (be32 (t.getD 0 0) (t.getD 1 0) (t.getD 2 0) (t.getD 3 0))) (pad + 32)

/-- The dynamic header: 5, 5 and 4 bits, then HCLEN fields of 3 bits (43_blocks.md R200). -/
def decodeDynhdr (bs : Bits) : Decoded :=
  match takeBits 5 bs with
  | none => .endOfData .nothing 0
  | some (h, r1) =>
    match takeBits 5 r1 with
    | none => .endOfData (.hlit (BitVec.ofNat 5 h)) 5
    | some (d, r2) =>
      match takeBits 4 r2 with
      | none => .endOfData (.hlitHdist (BitVec.ofNat 5 h) (BitVec.ofNat 5 d)) 10
      | some (c, r3) =>
        let cl := takeLens (c + 4) r3
        if cl.length = c + 4 then
          .elem (.dynhdr (BitVec.ofNat 5 h) (BitVec.ofNat 5 d) (BitVec.ofNat 4 c) cl) (14 + 3 * cl.length)
        else
          .endOfData (.clls (BitVec.ofNat 5 h) (BitVec.ofNat 5 d) (BitVec.ofNat 4 c) cl) (14 + 3 * cl.length)

/-- The decoder: total on any bits in any context. -/
def decode (ctx : Ctx) (bs : Bits) : Decoded :=
  match ctx with
  | .zhdr pad => decodeZhdr pad bs
  | .bhdr => decodeBhdr bs
  | .sthdr pad => decodeSthdr pad bs
  | .stbyte pad => decodeStbyte pad bs
  | .dynhdr => decodeDynhdr bs
  | .clEntry t hasPrev => finishCoded (clExtra hasPrev) clInstr (readCoded t (clExtra hasPrev) bs)
  | .symFixed => finishCoded lenExtra (fun _ sym e => some (fixedSymInstr sym e)) (readCoded fixLit lenExtra bs)
  | .symDyn t => finishCoded lenExtra (fun n sym e => some (dynSymInstr n sym e)) (readCoded t lenExtra bs)
  | .distFixed m =>
    finishCoded distExtra (fun _ sym e => some (fixedDistInstr m sym e)) (readCoded fixDist distExtra bs)
  | .distDyn t m => finishCoded distExtra (fun n sym e => some (dynDistInstr m n sym e)) (readCoded t distExtra bs)
  | .ztrl pad => decodeZtrl pad bs

/-! ## The parts of an instruction -/

/-- The length half of a fixed length row: its symbol, its extra value, its code and extra bits (R91, R98). -/
def fixedLenPart (sym le : Nat) : LenPart := ⟨sym, le, fixedLenCodeBits sym + lenExtra sym⟩

/-- The length half of a length row; `none` for any other row. -/
def lenPart? : Instr → Option LenPart
  | .len257 => some (fixedLenPart 257 0)
  | .len258 => some (fixedLenPart 258 0)
  | .len259 => some (fixedLenPart 259 0)
  | .len260 => some (fixedLenPart 260 0)
  | .len261 => some (fixedLenPart 261 0)
  | .len262 => some (fixedLenPart 262 0)
  | .len263 => some (fixedLenPart 263 0)
  | .len264 => some (fixedLenPart 264 0)
  | .len265 le => some (fixedLenPart 265 le.toNat)
  | .len266 le => some (fixedLenPart 266 le.toNat)
  | .len267 le => some (fixedLenPart 267 le.toNat)
  | .len268 le => some (fixedLenPart 268 le.toNat)
  | .len269 le => some (fixedLenPart 269 le.toNat)
  | .len270 le => some (fixedLenPart 270 le.toNat)
  | .len271 le => some (fixedLenPart 271 le.toNat)
  | .len272 le => some (fixedLenPart 272 le.toNat)
  | .len273 le => some (fixedLenPart 273 le.toNat)
  | .len274 le => some (fixedLenPart 274 le.toNat)
  | .len275 le => some (fixedLenPart 275 le.toNat)
  | .len276 le => some (fixedLenPart 276 le.toNat)
  | .len277 le => some (fixedLenPart 277 le.toNat)
  | .len278 le => some (fixedLenPart 278 le.toNat)
  | .len279 le => some (fixedLenPart 279 le.toNat)
  | .len280 le => some (fixedLenPart 280 le.toNat)
  | .len281 le => some (fixedLenPart 281 le.toNat)
  | .len282 le => some (fixedLenPart 282 le.toNat)
  | .len283 le => some (fixedLenPart 283 le.toNat)
  | .len284 le => some (fixedLenPart 284 le.toNat)
  | .len285 => some (fixedLenPart 285 0)
  | .matchDyn n sym le => some ⟨sym, le, n + lenExtra sym⟩
  | _ => none

/-- The two halves of a distance row; `none` for any other row. Symbols 30 and 31 have no extra bits (R241). -/
def distPart? : Instr → Option (LenPart × DistPart)
  | .dist0 m => some (m, ⟨0, 5, 0⟩)
  | .dist1 m => some (m, ⟨1, 5, 0⟩)
  | .dist2 m => some (m, ⟨2, 5, 0⟩)
  | .dist3 m => some (m, ⟨3, 5, 0⟩)
  | .dist4 m de => some (m, ⟨4, 5, de.toNat⟩)
  | .dist5 m de => some (m, ⟨5, 5, de.toNat⟩)
  | .dist6 m de => some (m, ⟨6, 5, de.toNat⟩)
  | .dist7 m de => some (m, ⟨7, 5, de.toNat⟩)
  | .dist8 m de => some (m, ⟨8, 5, de.toNat⟩)
  | .dist9 m de => some (m, ⟨9, 5, de.toNat⟩)
  | .dist10 m de => some (m, ⟨10, 5, de.toNat⟩)
  | .dist11 m de => some (m, ⟨11, 5, de.toNat⟩)
  | .dist12 m de => some (m, ⟨12, 5, de.toNat⟩)
  | .dist13 m de => some (m, ⟨13, 5, de.toNat⟩)
  | .dist14 m de => some (m, ⟨14, 5, de.toNat⟩)
  | .dist15 m de => some (m, ⟨15, 5, de.toNat⟩)
  | .dist16 m de => some (m, ⟨16, 5, de.toNat⟩)
  | .dist17 m de => some (m, ⟨17, 5, de.toNat⟩)
  | .dist18 m de => some (m, ⟨18, 5, de.toNat⟩)
  | .dist19 m de => some (m, ⟨19, 5, de.toNat⟩)
  | .dist20 m de => some (m, ⟨20, 5, de.toNat⟩)
  | .dist21 m de => some (m, ⟨21, 5, de.toNat⟩)
  | .dist22 m de => some (m, ⟨22, 5, de.toNat⟩)
  | .dist23 m de => some (m, ⟨23, 5, de.toNat⟩)
  | .dist24 m de => some (m, ⟨24, 5, de.toNat⟩)
  | .dist25 m de => some (m, ⟨25, 5, de.toNat⟩)
  | .dist26 m de => some (m, ⟨26, 5, de.toNat⟩)
  | .dist27 m de => some (m, ⟨27, 5, de.toNat⟩)
  | .dist28 m de => some (m, ⟨28, 5, de.toNat⟩)
  | .dist29 m de => some (m, ⟨29, 5, de.toNat⟩)
  | .badDist30 m => some (m, ⟨30, 5, 0⟩)
  | .badDist31 m => some (m, ⟨31, 5, 0⟩)
  | .distDyn m n sym de => some (m, ⟨sym, n, de⟩)
  | .badDistDyn m n sym => some (m, ⟨sym, n, 0⟩)
  | _ => none

/-- The code length and the byte of a literal row; `none` for any other row (R98, R231). -/
def litPart? : Instr → Option (Nat × Byte)
  | .lit8a x => some (8, lit8aByte x)
  | .lit8b x => some (8, lit8bByte x)
  | .lit8c x => some (8, lit8cByte x)
  | .lit9a x => some (9, lit9aByte x)
  | .lit9b x => some (9, lit9bByte x)
  | .lit9c x => some (9, lit9cByte x)
  | .litDyn n b => some (n, b)
  | _ => none

/-- How many bits an element takes, its pad apart (30_encoding.md R92). Of a length row this is its own half. -/
def elementBits : Instr → Nat
  | .zhdr _ _ => 16
  | .bhdrStored _ => 3
  | .bhdrFixed _ => 3
  | .bhdrDynamic _ => 3
  | .bhdrReserved _ => 3
  | .sthdr _ _ => 32
  | .stbyte _ => 8
  | .dynhdr _ _ _ cl => 14 + 3 * cl.length
  | .clLen n _ => n
  | .cl16 n _ => n + 2
  | .cl17 n _ => n + 3
  | .cl18 n _ => n + 7
  | .lit8a _ => 8
  | .lit8b _ => 8
  | .lit8c _ => 8
  | .lit9a _ => 9
  | .lit9b _ => 9
  | .lit9c _ => 9
  | .eob => 7
  | .len257 => 7
  | .len258 => 7
  | .len259 => 7
  | .len260 => 7
  | .len261 => 7
  | .len262 => 7
  | .len263 => 7
  | .len264 => 7
  | .len265 _ => 8
  | .len266 _ => 8
  | .len267 _ => 8
  | .len268 _ => 8
  | .len269 _ => 9
  | .len270 _ => 9
  | .len271 _ => 9
  | .len272 _ => 9
  | .len273 _ => 10
  | .len274 _ => 10
  | .len275 _ => 10
  | .len276 _ => 10
  | .len277 _ => 11
  | .len278 _ => 11
  | .len279 _ => 11
  | .len280 _ => 12
  | .len281 _ => 13
  | .len282 _ => 13
  | .len283 _ => 13
  | .len284 _ => 13
  | .len285 => 8
  | .badLit286 => 8
  | .badLit287 => 8
  | .dist0 _ => 5
  | .dist1 _ => 5
  | .dist2 _ => 5
  | .dist3 _ => 5
  | .dist4 _ _ => 6
  | .dist5 _ _ => 6
  | .dist6 _ _ => 7
  | .dist7 _ _ => 7
  | .dist8 _ _ => 8
  | .dist9 _ _ => 8
  | .dist10 _ _ => 9
  | .dist11 _ _ => 9
  | .dist12 _ _ => 10
  | .dist13 _ _ => 10
  | .dist14 _ _ => 11
  | .dist15 _ _ => 11
  | .dist16 _ _ => 12
  | .dist17 _ _ => 12
  | .dist18 _ _ => 13
  | .dist19 _ _ => 13
  | .dist20 _ _ => 14
  | .dist21 _ _ => 14
  | .dist22 _ _ => 15
  | .dist23 _ _ => 15
  | .dist24 _ _ => 16
  | .dist25 _ _ => 16
  | .dist26 _ _ => 17
  | .dist27 _ _ => 17
  | .dist28 _ _ => 18
  | .dist29 _ _ => 18
  | .badDist30 _ => 5
  | .badDist31 _ => 5
  | .litDyn n _ => n
  | .eobDyn n => n
  | .matchDyn n sym _ => n + lenExtra sym
  | .distDyn _ n sym _ => n + distExtra sym
  | .badLitDyn n _ => n
  | .badDistDyn _ n _ => n
  | .ztrl _ => 32

/-! ## The encoder -/

/-- The bits of a `ReadBits` field of width `n`, least significant first (20_memory.md R70). -/
def fieldBits : Nat → Nat → Bits
  | 0, _ => []
  | n + 1, v => (v % 2 == 1) :: fieldBits n (v / 2)

/-- The bits of a Huffman code of length `n`, most significant first (20_memory.md R71). -/
def codeBits : Nat → Nat → Bits
  | 0, _ => []
  | n + 1, c => c.testBit n :: codeBits n c

/-- The bits of a byte, bit i at offset i (30_encoding.md R91). -/
def byteBits (b : Byte) : Bits := fieldBits 8 b.toNat

/-- The pad an encoder writes; its values are never examined (40_bitreader.md R124). -/
def padBits (n : Nat) : Bits := List.replicate n false

/-- The code of a symbol in a table, by its length where that is given, followed by its extra bits. -/
def encodeCoded (t : HuffTable) (len : Option Nat) (sym extraBits extra : Nat) : Option Bits :=
  (t.find? fun e => e.sym == sym && (len == none || len == some e.len)).map fun e =>
    codeBits e.len e.code ++ fieldBits extraBits extra

/-- The symbol and extra value of a row of the fixed literal/length table (30_encoding.md R98). -/
def fixedSym? (i : Instr) : Option (Nat × Nat) :=
  match i with
  | .eob => some (256, 0)
  | .badLit286 => some (286, 0)
  | .badLit287 => some (287, 0)
  | .lit8a _ | .lit8b _ | .lit8c _ | .lit9a _ | .lit9b _ | .lit9c _ => (litPart? i).map fun p => (p.2.toNat, 0)
  | .matchDyn _ _ _ => none
  | i => (lenPart? i).map fun m => (m.sym, m.extra)

/-- The symbol, code length and extra value of a row of a dynamic literal/length table. -/
def dynSym? : Instr → Option (Nat × Nat × Nat)
  | .litDyn n b => some (b.toNat, n, 0)
  | .eobDyn n => some (256, n, 0)
  | .matchDyn n sym le => some (sym, n, le)
  | .badLitDyn n sym => some (sym, n, 0)
  | _ => none

/-- The encoder: the bits of an instruction in the context that decodes it, in stream order; `none` when the instruction
is no element of that context or its table has no code for it. -/
def encode (ctx : Ctx) (i : Instr) : Option Bits :=
  match ctx, i with
  | .zhdr pad, .zhdr c f => some (padBits pad ++ byteBits c ++ byteBits f)
  | .bhdr, .bhdrStored f => some (f :: fieldBits 2 0)
  | .bhdr, .bhdrFixed f => some (f :: fieldBits 2 1)
  | .bhdr, .bhdrDynamic f => some (f :: fieldBits 2 2)
  | .bhdr, .bhdrReserved f => some (f :: fieldBits 2 3)
  | .sthdr pad, .sthdr l n => some (padBits pad ++ fieldBits 16 l.toNat ++ fieldBits 16 n.toNat)
  | .stbyte pad, .stbyte b => some (padBits pad ++ byteBits b)
  | .dynhdr, .dynhdr h d c cl =>
    some (fieldBits 5 h.toNat ++ fieldBits 5 d.toNat ++ fieldBits 4 c.toNat ++ cl.flatMap fun l => fieldBits 3 l.toNat)
  | .clEntry t _, .clLen n v => encodeCoded t (some n) v.toNat 0 0
  | .clEntry t hasPrev, .cl16 n e =>
    if hasPrev || e == 0 then encodeCoded t (some n) 16 (clExtra hasPrev 16) e.toNat else none
  | .clEntry t hasPrev, .cl17 n e => encodeCoded t (some n) 17 (clExtra hasPrev 17) e.toNat
  | .clEntry t hasPrev, .cl18 n e => encodeCoded t (some n) 18 (clExtra hasPrev 18) e.toNat
  | .symFixed, i => (fixedSym? i).bind fun p => encodeCoded fixLit none p.1 (lenExtra p.1) p.2
  | .symDyn t, i => (dynSym? i).bind fun p => encodeCoded t (some p.2.1) p.1 (lenExtra p.1) p.2.2
  | .distFixed _, .distDyn _ _ _ _ => none
  | .distFixed _, .badDistDyn _ _ _ => none
  | .distFixed m, i =>
    (distPart? i).bind fun q =>
      if q.1 = m then encodeCoded fixDist none q.2.sym (distExtra q.2.sym) q.2.extra else none
  | .distDyn t m, .distDyn m' n sym de =>
    if m' = m then encodeCoded t (some n) sym (distExtra sym) de else none
  | .distDyn t m, .badDistDyn m' n sym =>
    if m' = m then encodeCoded t (some n) sym (distExtra sym) 0 else none
  | .ztrl pad, .ztrl a =>
    some (padBits pad ++ byteBits (a.extractLsb' 24 8) ++ byteBits (a.extractLsb' 16 8) ++ byteBits (a.extractLsb' 8 8) ++
      byteBits (a.extractLsb' 0 8))
  | _, _ => none

/-! ## A word of the opcode table -/

/-- The length half that stands before a distance row's word: LEN_257, length 3, seven bits (log 8). -/
def tableLenPart : LenPart := fixedLenPart 257 0

/-- The context and the stream bits a word of the opcode table stands for (log 8). The table numbers a Huffman code by
its value, first-read bit most significant, and any other field group by its `ReadBits` value (30_encoding.md R97).
The rows of different contexts overlap, so the first line that fits is taken. -/
def tableWord (nbits w : Nat) : Ctx × Bits :=
  if nbits ≤ 8 then
    if w = 2 ∨ w = 4 ∨ w = 6 then (.bhdr, fieldBits 3 w)
    else if w < 24 then (.symFixed, codeBits 7 w)
    else if w < 32 then (.distFixed tableLenPart, codeBits 5 w)
    else if 48 ≤ w ∧ w < 200 then (.symFixed, codeBits 8 w)
    else (.stbyte 0, fieldBits 8 w)
  else if nbits ≤ 16 then
    if 6 ≤ w ∧ w < 9 then (.symFixed, codeBits 7 w)
    else if 400 ≤ w ∧ w < 512 then (.symFixed, codeBits 9 w)
    else (.zhdr 0, fieldBits 16 w)
  else if nbits ≤ 32 then (.sthdr 0, fieldBits 32 w)
  else (.dynhdr, fieldBits 71 w)

/-- The instruction the decoder reads from a word of the opcode table, every bit above the word being 0. -/
def decodeTableWord (nbits w : Nat) : Option Instr :=
  match decode (tableWord nbits w).1 ((tableWord nbits w).2 ++ List.replicate 128 false) with
  | .elem i _ => some i
  | _ => none

end Sys2Proof
end

