-- ==== Sys2Proof/Config.lean ====
section
/-! DEFINITION. What an implementation fixes: the open parameters of spec/00_scope.md R8. They are plain data that the
state carries and no step changes (log 2). The spec leaves no instruction's result open, so there is no free value. -/

namespace Sys2Proof

/-- The address spaces: the three memories and the register indices (20_memory.md R79). -/
inductive Space where
  | input | output | trace | registers
  deriving DecidableEq, Repr

/-- The host addresses a space takes: `size` of them from `base` on (log 23). -/
structure Region where
  base : Nat
  size : Nat
  deriving DecidableEq, Repr

/-- The address lies in the region. -/
def Region.has (r : Region) (addr : Nat) : Bool := decide (r.base ≤ addr) && decide (addr < r.base + r.size)

/-- The two regions share no address. An empty region shares none, wherever its base lies (log 23). -/
def Region.apart (r q : Region) : Bool :=
  decide (r.size = 0) || decide (q.size = 0) || decide (r.base + r.size ≤ q.base) || decide (q.base + q.size ≤ r.base)

/-- `P_MAP`: where the platform places IN, OUT, TRACE and the registers in the host's address map
(20_memory.md R79, 60_exceptions.md R307, log 23). -/
structure AddressMap where
  input : Region
  output : Region
  trace : Region
  registers : Region
  deriving DecidableEq, Repr

/-- The region of a space. -/
def AddressMap.region (m : AddressMap) : Space → Region
  | .input => m.input
  | .output => m.output
  | .trace => m.trace
  | .registers => m.registers

/-- The spaces are disjoint (20_memory.md R79). DESIGN CHOICE (log 23): nothing else is asked of a placement; the spec does
not say whether a region must hold its whole space, so a region of any size is accepted. -/
def AddressMap.ok (m : AddressMap) : Bool :=
  m.input.apart m.output && m.input.apart m.trace && m.input.apart m.registers && m.output.apart m.trace &&
    m.output.apart m.registers && m.trace.apart m.registers

/-- The open parameters (00_scope.md R8, 92_eei_decisions.md "Open parameters"). `none` is the reference reading:
unbounded, and for P_MAP no placement, each space being addressed by its own indices. -/
structure Params where
  /-- `P_MAX_IN`: the largest input length, in bytes. -/
  maxIn : Option Nat
  /-- `P_IN_ADDR_W`: the width of the cursor's byte index. -/
  inAddrW : Option Nat
  /-- `P_MAX_OUT`: the capacity of OUT, in bytes. -/
  maxOut : Option Nat
  /-- `P_MAX_ITEMS`: the capacity of a block record, in items (log 11). -/
  maxItems : Option Nat
  /-- `P_MAX_BLOCKS`: the capacity of the block list, in records. -/
  maxBlocks : Option Nat
  /-- `P_REG_W`: the width of the host-visible count and position registers. -/
  regW : Option Nat
  /-- `P_MAP`: the placement in the host's address map (20_memory.md R79). -/
  map : Option AddressMap
  deriving DecidableEq, Repr

/-- The reference reading of every open parameter: unbounded (00_scope.md R8). -/
def Params.reference : Params := ⟨none, none, none, none, none, none, none⟩

/-- `n` has reached the capacity `cap`; an unbounded capacity is never reached (70_reset_and_hazards.md R331, log 19). -/
def Params.reached (cap : Option Nat) (n : Nat) : Bool :=
  match cap with
  | none => false
  | some c => decide (c ≤ n)

/-- `n` may be stored where `cap` is the largest value: `n ≤ cap`. -/
def Params.within (cap : Option Nat) (n : Nat) : Bool :=
  match cap with
  | none => true
  | some c => decide (n ≤ c)

/-- `n` fits in a register of width `w`. -/
def Params.fits (w : Option Nat) (n : Nat) : Bool :=
  match w with
  | none => true
  | some k => decide (n < 2 ^ k)

/-- The relations the spec puts on the parameters: `2^P_IN_ADDR_W > P_MAX_IN`, `P_REG_W ≥ P_IN_ADDR_W + 3` (R8), and that
the ranges 0..P_MAX_OUT and 0..P_MAX_BLOCKS fit the P_REG_W bits R22 gives their registers (log 12); and that the placed
spaces are disjoint (20_memory.md R79). -/
def Params.ok (p : Params) : Bool :=
  (match p.inAddrW with
    | none => true
    | some w => match p.maxIn with
      | none => false
      | some m => decide (m < 2 ^ w)) &&
  (match p.regW with
    | none => true
    | some r =>
      (match p.inAddrW with
        | none => false
        | some w => decide (w + 3 ≤ r)) &&
      (match p.maxOut with
        | none => false
        | some m => decide (m < 2 ^ r)) &&
      (match p.maxBlocks with
        | none => false
        | some m => decide (m < 2 ^ r))) &&
  (match p.map with
    | none => true
    | some m => m.ok)

end Sys2Proof
end

