-- ==== Sys2Proof/Machine/State.lean ====
section
/-! DEFINITION. The state of the machine as plain data, the reasons a step can stop, and the state after reset
(spec/10_state.md). -/

namespace Sys2Proof.Machine

/-- A byte memory in canonical form: cells at strictly rising addresses, none holding what an unlisted address reads as
(logs 4, 18). -/
abbrev Memory := List Host.Cell

/-- The values of ST (10_state.md R21). -/
inductive CoreState where
  | idle | zhdr | bhdr | storedHdr | storedData | dynHdr | dynLens | dynTables | symbol | blockEnd | ztrl | done | error
  deriving DecidableEq, Repr

/-- TSEL: which tables the symbol loop uses (10_state.md R22). -/
inductive TableSel where
  | fixed | dyn
  deriving DecidableEq, Repr

/-- The error names, `none` being code 0 (60_exceptions.md R290). -/
inductive ErrorCode where
  | none
  | unexpectedEndOfData
  | invalidBlockType
  | invalidStoredBlock
  | invalidCodeLengths
  | incompleteCodeLengths
  | invalidHuffmanCode
  | invalidBackReference
  deriving DecidableEq, Repr

/-- The kinds of a block record (10_state.md R43). -/
inductive BlockKind where
  | zlibHeader | stored | fixedHuffman | dynamicHuffman | zlibTrailer
  deriving DecidableEq, Repr

/-- The kinds of a trace item with their fields (10_state.md R41). -/
inductive ItemKind where
  | zlibHeader (cmf flg : Byte) (cm cinfo : BitVec 4) (fcheck : BitVec 5) (fdict : BitVec 1) (flevel : BitVec 2)
  | zlibChecksum (adler32 : BitVec 32)
  | literal (symbol : Byte) (outIndex : Nat)
  | backReference (length distance : Nat) (resolvedBytes : List Byte)
      (lengthSymbol lengthExtra distanceSymbol distanceExtra outIndex : Nat)
  | endOfBlock
  | dynamicHeader (hlit hdist hclen : Nat) (clLengths : List (BitVec 3))
  | dynamicCodeLengthEntry (symbol : Nat) (extra : Option Nat) (rep value firstIndex : Nat)
  deriving DecidableEq, Repr

/-- A trace item: its kind, its half-open bit span, and its place in the block list (10_state.md R40, R53). -/
structure Item where
  kind : ItemKind
  bitStart : Nat
  bitEnd : Nat
  blockIndex : Nat
  itemIndex : Nat
  deriving DecidableEq, Repr

/-- The fields of a block record that are written when the record is closed (45_engine.md R268, 60_exceptions.md R300);
an open record has none of them yet (log 15). -/
structure BlockClose where
  endBit : Nat
  byteStart : Nat
  byteEnd : Nat
  sizeBytes : Nat
  outEnd : Nat
  decodedBytes : List Byte
  deriving DecidableEq, Repr

/-- A block record (10_state.md R52). `final` is `none` for a pseudo-block; `storedLen` and `storedNLen` are `none` unless
a Stored block's LEN and NLEN were read; `isPartial` is the spec's field `partial`. -/
structure BlockRecord where
  index : Nat
  kind : BlockKind
  final : Option Bool
  startBit : Nat
  outStart : Nat
  storedLen : Option (BitVec 16)
  storedNLen : Option (BitVec 16)
  items : List Item
  isPartial : Bool
  closed : Option BlockClose
  deriving DecidableEq, Repr

/-- A move of the host between core steps (45_engine.md R275), or a turn left to the core (log 1). -/
inductive HostMove where
  /-- Write one byte of IN. -/
  | writeIn (addr : Nat) (b : Byte)
  /-- Write a host register by its index. -/
  | writeReg (index value : Nat)
  /-- The host makes no move: the core takes its next step, if it has one. -/
  | coreTurn
  deriving DecidableEq, Repr

/-- The machine's state: every register, table, memory and output record of 10_state.md under the spec's own name, the
open parameters, and the host moves still to be made. Registers whose width is an open parameter are naturals. -/
structure State where
  st : CoreState
  curByte : Nat
  curBit : BitVec 3
  inLen : Nat
  bfinal : Bool
  btype : BitVec 2
  tsel : TableSel
  hlit : BitVec 9
  hdist : BitVec 6
  hclen : BitVec 5
  lcnt : BitVec 9
  slen : BitVec 16
  snlen : BitVec 16
  srem : BitVec 16
  outLen : Nat
  blkCount : Nat
  blkOpen : Bool
  blkStart : Nat
  blkOutStart : Nat
  zcmf : Byte
  zflg : Byte
  adler : BitVec 32
  hdrValid : Bool
  trlValid : Bool
  errCode : ErrorCode
  errPos : Nat
  errBlk : Nat
  cll : List (BitVec 3)
  lens : List (BitVec 4)
  clTab : HuffTable
  litTab : HuffTable
  distTab : HuffTable
  inMem : Memory
  out : Memory
  trace : List BlockRecord
  params : Params
  host : List HostMove
  deriving DecidableEq, Repr

/-- Why the machine has no next state. Each is safe: the model stops where the core has no move either, so no false claim
about a next state follows from it (log 3). -/
inductive Fault where
  /-- Raised by a step in IDLE, DONE or ERROR with no host move left: the core has no step there (45_engine.md R261).
  Safe. -/
  | noStep
  /-- Raised by an element that would append a byte when OUT_LEN = P_MAX_OUT (70_reset_and_hazards.md R331). Safe. -/
  | outFull
  /-- Raised by an element that would append a record when BLK_COUNT = P_MAX_BLOCKS (R331). Safe. -/
  | blocksFull
  /-- Raised by an element that would append an item to a record that holds P_MAX_ITEMS items (R331). Safe. -/
  | itemsFull
  /-- Raised by a host write to IN at or above P_MAX_IN, an address IN does not have (R8, R79, log 13). Safe. -/
  | noSuchInAddress
  deriving DecidableEq, Repr

/-- Why a step has no meaning. -/
inductive Refusal where
  /-- Raised by `exec` for an instruction that has no meaning yet. Safe. -/
  | notModelled (mnemonic : String)
  /-- Raised by a host write to IN while the core is BUSY, a move 45_engine.md R275 does not give the host
  (93_implementation_defined.md item 24, log 14). Safe. -/
  | hostWriteWhileBusy
  deriving DecidableEq, Repr

/-- The machine after power-on (10_state.md R54, 70_reset_and_hazards.md R320). LENS, which the spec leaves unwritten, is
all 0 (log 5); the parameters have their reference reading (log 2); no host move is waiting (log 1). -/
def State.reset : State where
  st := .idle
  curByte := 0
  curBit := 0
  inLen := 0
  bfinal := false
  btype := 0
  tsel := .fixed
  hlit := 0
  hdist := 0
  hclen := 0
  lcnt := 0
  slen := 0
  snlen := 0
  srem := 0
  outLen := 0
  blkCount := 0
  blkOpen := false
  blkStart := 0
  blkOutStart := 0
  zcmf := 0
  zflg := 0
  adler := 0
  hdrValid := false
  trlValid := false
  errCode := .none
  errPos := 0
  errBlk := 0
  cll := List.replicate 19 0
  lens := List.replicate 320 0
  clTab := []
  litTab := []
  distTab := []
  inMem := []
  out := []
  trace := []
  params := Params.reference
  host := []

end Sys2Proof.Machine
end

