-- ==== Sys2Proof/Machine/Ops.lean ====
section
/-! DEFINITION. The named operations over memory, cursor, trace and registers, and the error entry
(spec/20_memory.md, 40_bitreader.md, 45_engine.md R262 to R268, 60_exceptions.md R300). -/

namespace Sys2Proof.Machine

/-- The outcome of a step of this machine. -/
abbrev StepResult := Host.Outcome State Fault Refusal

/-- Go on with the next operation of the same step, unless the machine stopped. -/
def andThen (o : StepResult) (f : State → StepResult) : StepResult :=
  match o with
  | .next s => f s
  | .fault r => .fault r
  | .refused r => .refused r

/-! ## Byte memories -/

/-- What an unlisted address reads as: 0 (log 4). -/
def unlistedByte : Byte := 0

/-- Read one byte. -/
def readByteAt : Memory → Nat → Byte
  | [], _ => unlistedByte
  | (k, v) :: m, a => if k = a then v else readByteAt m a

/-- Write one byte, keeping the canonical form. -/
def writeByteAt : Memory → Nat → Byte → Memory
  | [], a, b => if b = unlistedByte then [] else [(a, b)]
  | (k, v) :: m, a, b =>
    if a < k then (if b = unlistedByte then (k, v) :: m else (a, b) :: (k, v) :: m)
    else if a = k then (if b = unlistedByte then m else (a, b) :: m)
    else (k, v) :: writeByteAt m a b

/-- Write a list of bytes at rising addresses. -/
def writeBytesAt : Memory → Nat → List Byte → Memory
  | m, _, [] => m
  | m, a, b :: bs => writeBytesAt (writeByteAt m a b) (a + 1) bs

/-- `MemRead(addr, n)`: the bytes at `a .. a+n-1` (20_memory.md R76). -/
def readBytesAt (m : Memory) (a : Nat) : Nat → List Byte
  | 0 => []
  | n + 1 => readByteAt m a :: readBytesAt m (a + 1) n

/-- The canonical form: addresses strictly rising, and no cell holds what an unlisted address reads as. -/
abbrev Memory.wf (m : Memory) : Prop :=
  m.Pairwise (fun c d => c.1 < d.1) ∧ ∀ c ∈ m, c.2 ≠ unlistedByte

/-! ## The cursor and the bits at it -/

/-- `BitOffset()` = 8*CUR_BYTE + CUR_BIT (10_state.md R24, 40_bitreader.md R127). -/
def bitOffset (s : State) : Nat := 8 * s.curByte + s.curBit.toNat

/-- Set the cursor to the bit offset `k` (00_scope.md R11). -/
def setCursor (k : Nat) (s : State) : State := { s with curByte := k / 8, curBit := BitVec.ofNat 3 (k % 8) }

/-- Consume `n` bits (10_state.md R25). -/
def advance (n : Nat) (s : State) : State := setCursor (bitOffset s + n) s

/-- The bits between the cursor and the next byte boundary (30_encoding.md R92). -/
def padLen (s : State) : Nat := (8 - bitOffset s % 8) % 8

/-- `AlignToByte()` (40_bitreader.md R124). -/
def alignToByte (s : State) : State := if s.curBit = 0 then s else { s with curByte := s.curByte + 1, curBit := 0 }

/-- What a successful `ReadBytes(n)` does to the cursor: align, then pass `n` bytes (40_bitreader.md R125). -/
def skipBytes (n : Nat) (s : State) : State := advance (8 * n) (alignToByte s)

/-- `avail`: the bits still available (40_bitreader.md R120). -/
def avail (s : State) : Nat := 8 * s.inLen - bitOffset s

/-- Stream bit `k` of an input memory: bit `k mod 8` of byte `k div 8` (00_scope.md R11). -/
def inBit (m : Memory) (k : Nat) : Bool := (readByteAt m (k / 8)).getLsbD (k % 8)

/-- The `n` stream bits from offset `k` on. -/
def bitsAt (m : Memory) : Nat → Nat → Bits
  | 0, _ => []
  | n + 1, k => inBit m k :: bitsAt m n (k + 1)

/-- All the bits from the cursor to the end of the input. -/
def stream (s : State) : Bits := bitsAt s.inMem (avail s) (bitOffset s)

/-- `ReadBits(n)` on the state: the value and the state after it, `none` for `UnexpectedEndOfData`
(40_bitreader.md R121, R122, R128). -/
def readBits (n : Nat) (s : State) : Option (Nat × State) :=
  (takeBits n (stream s)).map fun p => (p.1, advance n s)

/-- `ReadBytes(n)` on the state (40_bitreader.md R125, R128). -/
def readBytes (n : Nat) (s : State) : Option (List Byte × State) :=
  (takeBytes n ((stream s).drop (padLen s))).map fun p => (p.1, skipBytes n s)

/-! ## Output -/

/-- `OutRead(i)` (20_memory.md R78). -/
def outRead (s : State) (i : Nat) : Byte := readByteAt s.out i

/-- `OutAppend(b)`: OUT[OUT_LEN] <- b; OUT_LEN <- OUT_LEN + 1, unless the capacity is reached (20_memory.md R77, R331). -/
def outAppend (b : Byte) (s : State) : StepResult :=
  if Params.reached s.params.maxOut s.outLen then .fault .outFull
  else .next { s with out := writeByteAt s.out s.outLen b, outLen := s.outLen + 1 }

/-- `for k: OutAppend(bytes[k])` (44_symbols.md R236). -/
def outAppendAll : List Byte → State → StepResult
  | [], s => .next s
  | b :: bs, s => andThen (outAppend b s) (outAppendAll bs)

/-- `Resolve(len, dist, OUT[0..OUT_LEN-1])` (44_symbols.md R245). -/
def resolve (len dist : Nat) (s : State) : List Byte :=
  let start := s.outLen - dist
  (List.range len).map fun i =>
    if start + i < s.outLen then outRead s (start + i) else outRead s (start + i % dist)

/-! ## The block list -/

/-- Append a record to the block list, unless a capacity is reached: `P_MAX_BLOCKS` records, or `P_MAX_ITEMS` items for
the one item a pseudo-block brings with it (R331, log 11). -/
def appendRecord (r : BlockRecord) (s : State) : StepResult :=
  if Params.reached s.params.maxBlocks s.blkCount then .fault .blocksFull
  else if r.items ≠ [] ∧ Params.reached s.params.maxItems 0 then .fault .itemsFull
  else .next { s with trace := s.trace ++ [r], blkCount := s.blkCount + 1 }

/-- Change the open record, `TRACE[BLK_COUNT-1]`. Without one, nothing changes (log 16). -/
def modifyRecord (f : BlockRecord → BlockRecord) (s : State) : State :=
  { s with trace := s.trace.modify (s.blkCount - 1) f }

/-- The items of the record `TRACE[BLK_COUNT-1]`. -/
def openItems (s : State) : List Item := ((s.trace[s.blkCount - 1]?).map BlockRecord.items).getD []

/-- `OpenBlock(kind)` (45_engine.md R265). -/
def openBlock (kind : BlockKind) (s : State) : StepResult :=
  andThen
    (appendRecord
      { index := s.blkCount, kind := kind, final := some s.bfinal, startBit := s.blkStart, outStart := s.blkOutStart,
        storedLen := none, storedNLen := none, items := [], isPartial := false, closed := none } s)
    fun s => .next { s with blkOpen := true }

/-- `r.items <- r.items ++ [item]` with the item's place filled in (45_engine.md R266, 10_state.md R53). -/
def addItem (kind : ItemKind) (bitStart bitEnd : Nat) (r : BlockRecord) : BlockRecord :=
  { r with
    items := r.items ++
      [{ kind := kind, bitStart := bitStart, bitEnd := bitEnd, blockIndex := r.index, itemIndex := r.items.length }] }

/-- `EmitItem(kind, fields, start)` (45_engine.md R266). -/
def emitItem (kind : ItemKind) (start : Nat) (s : State) : StepResult :=
  if Params.reached s.params.maxItems (openItems s).length then .fault .itemsFull
  else .next (modifyRecord (addItem kind start (bitOffset s)) s)

/-- The closing fields of a record that ends at `endBit` and `outEnd` (45_engine.md R268, R281). -/
def closing (out : Memory) (startBit endBit outStart outEnd : Nat) : BlockClose :=
  { endBit := endBit
    byteStart := startBit / 8
    byteEnd := (endBit + 7) / 8
    sizeBytes := (endBit + 7) / 8 - startBit / 8
    outEnd := outEnd
    decodedBytes := readBytesAt out outStart (outEnd - outStart) }

/-- Close the open record at the cursor: BLOCK_END's writes (45_engine.md R268), which leave the field `partial` alone, and
with `isPartial` those of the error entry, which set it (60_exceptions.md R300). -/
def closeRecord (isPartial : Bool) (s : State) : State :=
  { modifyRecord
      (fun r =>
        { r with
          isPartial := isPartial || r.isPartial
          closed := some (closing s.out r.startBit (bitOffset s) r.outStart s.outLen) }) s with
    blkOpen := false }

/-- A pseudo-block record with its one item (42_zlib_envelope.md R171, R178). -/
def pseudoBlock (index : Nat) (kind : BlockKind) (item : ItemKind) (startBit endBit : Nat) (s : State) : BlockRecord :=
  { index := index, kind := kind, final := none, startBit := startBit, outStart := s.outLen, storedLen := none,
    storedNLen := none,
    items := [{ kind := item, bitStart := startBit, bitEnd := endBit, blockIndex := index, itemIndex := 0 }],
    isPartial := false
    closed := some (closing s.out startBit endBit s.outLen s.outLen) }

/-! ## The error entry, and what leaves it -/

/-- `Raise(code)`: the error entry (60_exceptions.md R300). ERR_CODE, ERR_POS and ERR_BLK are written, an open record is
closed as partial, and ST becomes ERROR. The result is a next state: the core has no handler address. -/
def raise (code : ErrorCode) (s : State) : State :=
  let s1 :=
    { s with errCode := code, errPos := bitOffset s, errBlk := if s.blkOpen then s.blkCount - 1 else s.blkCount }
  { (if s.blkOpen then closeRecord true s1 else s1) with st := .error }

/-- STATUS.STATE = BUSY: ST in 1..10 (10_state.md R30). -/
def busy (s : State) : Bool :=
  match s.st with
  | .idle | .done | .error => false
  | _ => true

/-- START: a fresh decode of the current IN (45_engine.md R262, R263). IN, IN_LEN and LENS are not written (log 5). -/
def startDecode (s : State) : State :=
  { s with
    curByte := 0, curBit := 0, bfinal := false, btype := 0, tsel := .fixed, hlit := 0, hdist := 0, hclen := 0, lcnt := 0,
    slen := 0, snlen := 0, srem := 0, outLen := 0, out := [], blkCount := 0, blkOpen := false, blkStart := 0,
    blkOutStart := 0, trace := [], zcmf := 0, zflg := 0, adler := 0, hdrValid := false, trlValid := false,
    errCode := .none, errPos := 0, errBlk := 0, cll := List.replicate 19 0, clTab := [], litTab := [], distTab := []
    st := if s.inLen > 0 then .zhdr else .done }

/-- RESET: every piece of state takes its value of 10_state.md R54, the contents of IN excepted
(70_reset_and_hazards.md R320). The parameters are fixed, and the host's later moves stay its own. -/
def hostReset (s : State) : State := { State.reset with inMem := s.inMem, params := s.params, host := s.host }

end Sys2Proof.Machine
end

