-- ==== Sys2Proof/Machine/Flags.lean ====
section
/-! DEFINITION. Codes and flags: the numeric codes of ST, TSEL and the errors, and the status words the host reads
(spec/10_state.md R21, R27 to R33, 60_exceptions.md R290). -/

namespace Sys2Proof.Machine

/-- The code of ST, 0..12 (10_state.md R21). -/
def stCode : CoreState → Nat
  | .idle => 0
  | .zhdr => 1
  | .bhdr => 2
  | .storedHdr => 3
  | .storedData => 4
  | .dynHdr => 5
  | .dynLens => 6
  | .dynTables => 7
  | .symbol => 8
  | .blockEnd => 9
  | .ztrl => 10
  | .done => 11
  | .error => 12

/-- STATUS.STATE: 0 IDLE, 1 BUSY, 2 DONE, 3 ERROR (10_state.md R30). -/
def stateCode : CoreState → Nat
  | .idle => 0
  | .done => 2
  | .error => 3
  | _ => 1

/-- The code of an error, 0..7 (60_exceptions.md R290). -/
def errorNumber : ErrorCode → Nat
  | .none => 0
  | .unexpectedEndOfData => 1
  | .invalidBlockType => 2
  | .invalidStoredBlock => 3
  | .invalidCodeLengths => 4
  | .incompleteCodeLengths => 5
  | .invalidHuffmanCode => 6
  | .invalidBackReference => 7

/-- The kind of a DEFLATE block by BTYPE (10_state.md R43, 43_blocks.md R188). -/
def blockKindOf (btype : BitVec 2) : BlockKind :=
  if btype = 0 then .stored else if btype = 1 then .fixedHuffman else .dynamicHuffman

/-- The stored-block check: LEN xor NLEN = 0xFFFF (43_blocks.md R193). -/
def storedLenOk (len nlen : BitVec 16) : Bool := (len ^^^ nlen) == 0xFFFF#16

/-- PARTIAL: the last record of the block list is partial (10_state.md R33). -/
def partialFlag (s : State) : Bool := ((s.trace.getLast?).map BlockRecord.isPartial).getD false

/-- STATUS: bits [1:0] STATE, bits [7:4] ST (10_state.md R30). -/
def statusWord (s : State) : Nat := stateCode s.st + 16 * stCode s.st

/-- FLAGS: bit 0 HDR_VALID, bit 1 TRL_VALID, bit 2 PARTIAL (10_state.md R28). -/
def flagsWord (s : State) : Nat := s.hdrValid.toNat + 2 * s.trlValid.toNat + 4 * (partialFlag s).toNat

/-- The ZHDR register's word: CMF, FLG, CM, CINFO, FCHECK, FDICT, FLEVEL from bit 0 up (10_state.md R28). -/
def zhdrWord (cmf flg : Byte) : BitVec 32 :=
  flevelOf flg ++ fdictOf flg ++ fcheckOf flg ++ cinfoOf cmf ++ cmOf cmf ++ flg ++ cmf

end Sys2Proof.Machine
end

