-- ==== Sys2Proof/Machine/Block.lean ====
section
/-! DEFINITION. The block header, the stored block and the closing of a block
(spec/43_blocks.md §1, §2, 45_engine.md R268). -/

namespace Sys2Proof.Machine

/-- BFINAL and BTYPE read: the cursor passes the 3 bits and both registers are written (43_blocks.md R186). -/
def readBhdr (final : Bool) (btype : BitVec 2) (s : State) : State :=
  { advance 3 s with bfinal := final, btype := btype }

/-- The part of a BHDR step after a valid BTYPE: BLK_START, BLK_OUT_START and OpenBlock (43_blocks.md R186). -/
def beginBlock (final : Bool) (btype : BitVec 2) (s : State) : StepResult :=
  let s1 := readBhdr final btype s
  openBlock (blockKindOf btype) { s1 with blkStart := bitOffset s, blkOutStart := s1.outLen }

/-- BHDR with BTYPE = 0: a Stored block (43_blocks.md R186, R188). -/
def execBhdrStored (final : Bool) (s : State) : StepResult :=
  andThen (beginBlock final 0 s) fun s1 => .next { s1 with st := .storedHdr }

/-- BHDR with BTYPE = 1: a FixedHuffman block, which has no further header (43_blocks.md R186, R189). -/
def execBhdrFixed (final : Bool) (s : State) : StepResult :=
  andThen (beginBlock final 1 s) fun s1 => .next { s1 with tsel := .fixed, st := .symbol }

/-- BHDR with BTYPE = 2: a DynamicHuffman block (43_blocks.md R186). -/
def execBhdrDynamic (final : Bool) (s : State) : StepResult :=
  andThen (beginBlock final 2 s) fun s1 => .next { s1 with st := .dynHdr }

/-- BHDR with BTYPE = 3 raises InvalidBlockType after the 3 bits; no record is opened (43_blocks.md R187, log 10). -/
def execBhdrReserved (final : Bool) (s : State) : StepResult :=
  .next (raise .invalidBlockType (readBhdr final 3 s))

/-- STHDR (43_blocks.md R192, R193, R195): LEN and NLEN into their registers and the open record, then the check. -/
def execSthdr (len nlen : BitVec 16) (s : State) : StepResult :=
  let s1 :=
    modifyRecord (fun r => { r with storedLen := some len, storedNLen := some nlen })
      { skipBytes 4 s with slen := len, snlen := nlen }
  if storedLenOk len nlen then
    .next { s1 with srem := len, st := if len = 0 then .blockEnd else .storedData }
  else .next (raise .invalidStoredBlock s1)

/-- STBYTE (43_blocks.md R194): one byte to OUT, one Literal item, SREM counts down. -/
def execStbyte (b : BitVec 8) (s : State) : StepResult :=
  andThen (outAppend b (skipBytes 1 s)) fun s1 =>
  andThen (emitItem (.literal b s.outLen) (bitOffset s) s1) fun s2 =>
    .next { s2 with srem := s2.srem - 1, st := if s2.srem - 1 = 0 then .blockEnd else s2.st }

/-- The BLOCK_END step (45_engine.md R268): it consumes no bits, closes the open record and selects the next state. -/
def blockEnd (s : State) : State :=
  { closeRecord false s with st := if s.bfinal then .ztrl else .bhdr }

end Sys2Proof.Machine
end

