-- ==== Sys2Proof/Machine/Distance.lean ====
section
/-! DEFINITION. The distance half of a MATCH: the guard, Resolve, the appends and the item, or the error
(spec/44_symbols.md R236, R238, R241, R244 to R247). -/

namespace Sys2Proof.Machine

/-- The distance half of a MATCH whose length half is `m`, the cursor standing at the distance code
(44_symbols.md R236, R244, R245). The item spans from the length code through the distance's extra bits (R247). -/
def copyElement (m : LenPart) (p : DistPart) (s : State) : StepResult :=
  let b := bitOffset s - m.bits
  let s1 := advance (p.codeBits + distExtra p.sym) s
  let len := lenBase m.sym + m.extra
  let dist := distBase p.sym + p.extra
  if dist > s1.outLen then .next (raise .invalidBackReference s1)
  else
    andThen (outAppendAll (resolve len dist s1) s1)
      (emitItem (.backReference len dist (resolve len dist s1) m.sym m.extra p.sym p.extra s.outLen) b)

/-- A distance symbol without a meaning raises InvalidHuffmanCode after its code, before any extra bit (R241). -/
def badDistanceElement (n : Nat) (s : State) : StepResult := .next (raise .invalidHuffmanCode (advance n s))

/-- The distance half as it is decoded: symbols 0..29 copy, 30 and 31 raise (44_symbols.md R236, R241). -/
def distanceElement (m : LenPart) (p : DistPart) (s : State) : StepResult :=
  if p.sym < 30 then copyElement m p s else badDistanceElement p.codeBits s

/-- DIST_0: no extra bits (44_symbols.md R238). -/
def execDist0 (m : LenPart) (s : State) : StepResult := copyElement m ⟨0, 5, 0⟩ s

/-- DIST_1: no extra bits (44_symbols.md R238). -/
def execDist1 (m : LenPart) (s : State) : StepResult := copyElement m ⟨1, 5, 0⟩ s

/-- DIST_2: no extra bits (44_symbols.md R238). -/
def execDist2 (m : LenPart) (s : State) : StepResult := copyElement m ⟨2, 5, 0⟩ s

/-- DIST_3: no extra bits (44_symbols.md R238). -/
def execDist3 (m : LenPart) (s : State) : StepResult := copyElement m ⟨3, 5, 0⟩ s

/-- DIST_4: 1 extra bit (44_symbols.md R238). -/
def execDist4 (m : LenPart) (de : BitVec 1) (s : State) : StepResult := copyElement m ⟨4, 5, de.toNat⟩ s

/-- DIST_5: 1 extra bit (44_symbols.md R238). -/
def execDist5 (m : LenPart) (de : BitVec 1) (s : State) : StepResult := copyElement m ⟨5, 5, de.toNat⟩ s

/-- DIST_6: 2 extra bits (44_symbols.md R238). -/
def execDist6 (m : LenPart) (de : BitVec 2) (s : State) : StepResult := copyElement m ⟨6, 5, de.toNat⟩ s

/-- DIST_7: 2 extra bits (44_symbols.md R238). -/
def execDist7 (m : LenPart) (de : BitVec 2) (s : State) : StepResult := copyElement m ⟨7, 5, de.toNat⟩ s

/-- DIST_8: 3 extra bits (44_symbols.md R238). -/
def execDist8 (m : LenPart) (de : BitVec 3) (s : State) : StepResult := copyElement m ⟨8, 5, de.toNat⟩ s

/-- DIST_9: 3 extra bits (44_symbols.md R238). -/
def execDist9 (m : LenPart) (de : BitVec 3) (s : State) : StepResult := copyElement m ⟨9, 5, de.toNat⟩ s

/-- DIST_10: 4 extra bits (44_symbols.md R238). -/
def execDist10 (m : LenPart) (de : BitVec 4) (s : State) : StepResult := copyElement m ⟨10, 5, de.toNat⟩ s

/-- DIST_11: 4 extra bits (44_symbols.md R238). -/
def execDist11 (m : LenPart) (de : BitVec 4) (s : State) : StepResult := copyElement m ⟨11, 5, de.toNat⟩ s

/-- DIST_12: 5 extra bits (44_symbols.md R238). -/
def execDist12 (m : LenPart) (de : BitVec 5) (s : State) : StepResult := copyElement m ⟨12, 5, de.toNat⟩ s

/-- DIST_13: 5 extra bits (44_symbols.md R238). -/
def execDist13 (m : LenPart) (de : BitVec 5) (s : State) : StepResult := copyElement m ⟨13, 5, de.toNat⟩ s

/-- DIST_14: 6 extra bits (44_symbols.md R238). -/
def execDist14 (m : LenPart) (de : BitVec 6) (s : State) : StepResult := copyElement m ⟨14, 5, de.toNat⟩ s

/-- DIST_15: 6 extra bits (44_symbols.md R238). -/
def execDist15 (m : LenPart) (de : BitVec 6) (s : State) : StepResult := copyElement m ⟨15, 5, de.toNat⟩ s

/-- DIST_16: 7 extra bits (44_symbols.md R238). -/
def execDist16 (m : LenPart) (de : BitVec 7) (s : State) : StepResult := copyElement m ⟨16, 5, de.toNat⟩ s

/-- DIST_17: 7 extra bits (44_symbols.md R238). -/
def execDist17 (m : LenPart) (de : BitVec 7) (s : State) : StepResult := copyElement m ⟨17, 5, de.toNat⟩ s

/-- DIST_18: 8 extra bits (44_symbols.md R238). -/
def execDist18 (m : LenPart) (de : BitVec 8) (s : State) : StepResult := copyElement m ⟨18, 5, de.toNat⟩ s

/-- DIST_19: 8 extra bits (44_symbols.md R238). -/
def execDist19 (m : LenPart) (de : BitVec 8) (s : State) : StepResult := copyElement m ⟨19, 5, de.toNat⟩ s

/-- DIST_20: 9 extra bits (44_symbols.md R238). -/
def execDist20 (m : LenPart) (de : BitVec 9) (s : State) : StepResult := copyElement m ⟨20, 5, de.toNat⟩ s

/-- DIST_21: 9 extra bits (44_symbols.md R238). -/
def execDist21 (m : LenPart) (de : BitVec 9) (s : State) : StepResult := copyElement m ⟨21, 5, de.toNat⟩ s

/-- DIST_22: 10 extra bits (44_symbols.md R238). -/
def execDist22 (m : LenPart) (de : BitVec 10) (s : State) : StepResult := copyElement m ⟨22, 5, de.toNat⟩ s

/-- DIST_23: 10 extra bits (44_symbols.md R238). -/
def execDist23 (m : LenPart) (de : BitVec 10) (s : State) : StepResult := copyElement m ⟨23, 5, de.toNat⟩ s

/-- DIST_24: 11 extra bits (44_symbols.md R238). -/
def execDist24 (m : LenPart) (de : BitVec 11) (s : State) : StepResult := copyElement m ⟨24, 5, de.toNat⟩ s

/-- DIST_25: 11 extra bits (44_symbols.md R238). -/
def execDist25 (m : LenPart) (de : BitVec 11) (s : State) : StepResult := copyElement m ⟨25, 5, de.toNat⟩ s

/-- DIST_26: 12 extra bits (44_symbols.md R238). -/
def execDist26 (m : LenPart) (de : BitVec 12) (s : State) : StepResult := copyElement m ⟨26, 5, de.toNat⟩ s

/-- DIST_27: 12 extra bits (44_symbols.md R238). -/
def execDist27 (m : LenPart) (de : BitVec 12) (s : State) : StepResult := copyElement m ⟨27, 5, de.toNat⟩ s

/-- DIST_28: 13 extra bits (44_symbols.md R238). -/
def execDist28 (m : LenPart) (de : BitVec 13) (s : State) : StepResult := copyElement m ⟨28, 5, de.toNat⟩ s

/-- DIST_29: 13 extra bits (44_symbols.md R238). -/
def execDist29 (m : LenPart) (de : BitVec 13) (s : State) : StepResult := copyElement m ⟨29, 5, de.toNat⟩ s

/-- BAD_DIST_30: the fixed distance code 11110. -/
def execBadDist30 (_m : LenPart) (s : State) : StepResult := badDistanceElement 5 s

/-- BAD_DIST_31: the fixed distance code 11111. -/
def execBadDist31 (_m : LenPart) (s : State) : StepResult := badDistanceElement 5 s

/-- DIST_DYN: a distance 0..29 of the block's own table. -/
def execDistDyn (m : LenPart) (n sym de : Nat) (s : State) : StepResult := copyElement m ⟨sym, n, de⟩ s

/-- BAD_DIST_DYN: distance symbol 30 or 31 of the block's own table. -/
def execBadDistDyn (_m : LenPart) (n _sym : Nat) (s : State) : StepResult := badDistanceElement n s

end Sys2Proof.Machine
end

