-- ==== Sys2Proof/Machine/Dynamic.lean ====
section
/-! DEFINITION. The dynamic header, the code-length entries and the building of the dynamic tables
(spec/43_blocks.md §3, §4). -/

namespace Sys2Proof.Machine

/-- The three header counts into their registers (43_blocks.md R200). -/
def writeCounts (h d : BitVec 5) (c : BitVec 4) (s : State) : State :=
  { s with
    hlit := BitVec.ofNat 9 (hlitOf h), hdist := BitVec.ofNat 6 (hdistOf d), hclen := BitVec.ofNat 5 (hclenOf c) }

/-- DYNHDR (43_blocks.md R200, R201): the counts and CLL are written and the DynamicHeader item emitted before CL_TAB is
built, so the item survives a failing Build. -/
def execDynhdr (h d : BitVec 5) (c : BitVec 4) (cl : List (BitVec 3)) (s : State) : StepResult :=
  let s1 := { writeCounts h d c (advance (14 + 3 * cl.length) s) with cll := cllOf cl }
  andThen (emitItem (.dynamicHeader (hlitOf h) (hdistOf d) (hclenOf c) (cllOf cl)) (bitOffset s) s1) fun s2 =>
    match build ((cllOf cl).map BitVec.toNat) with
    | none => .next (raise .invalidCodeLengths s2)
    | some t => .next { s2 with clTab := t, lcnt := 0, st := .dynLens }

/-- `LENS[i .. i+r-1] <- v`. -/
def writeRun (lens : List (BitVec 4)) (i : Nat) : Nat → BitVec 4 → List (BitVec 4)
  | 0, _ => lens
  | r + 1, v => writeRun (lens.set i v) (i + 1) r v

/-- The end of every DYN_LENS step: on to DYN_TABLES once HLIT + HDIST lengths are there (43_blocks.md R202). -/
def lensNext (s : State) : State :=
  if s.lcnt.toNat = s.hlit.toNat + s.hdist.toNat then { s with st := .dynTables } else s

/-- Write `r` lengths `v` from LCNT on and emit the entry's item (43_blocks.md R202 to R204). -/
def writeLengths (sym : Nat) (extra : Option Nat) (r : Nat) (v : BitVec 4) (b : Nat) (s : State) : StepResult :=
  let s1 :=
    { s with lens := writeRun s.lens s.lcnt.toNat r v, lcnt := BitVec.ofNat 9 (s.lcnt.toNat + r) }
  andThen (emitItem (.dynamicCodeLengthEntry sym extra r v.toNat s.lcnt.toNat) b s1) fun s2 => .next (lensNext s2)

/-- A repeat entry whose bits have been read: the overrun check, then the lengths (43_blocks.md R203, R204). -/
def repeatLengths (sym extra r : Nat) (v : BitVec 4) (b : Nat) (s : State) : StepResult :=
  if s.lcnt.toNat + r > s.hlit.toNat + s.hdist.toNat then .next (raise .invalidCodeLengths s)
  else writeLengths sym (some extra) r v b s

/-- CL_LEN: a code-length symbol 0..15 is the length written (43_blocks.md R202). -/
def execClLen (n : Nat) (v : BitVec 4) (s : State) : StepResult :=
  writeLengths v.toNat none 1 v (bitOffset s) (advance n s)

/-- CL_16: repeat the previous length 3 to 6 times. Without a previous length it raises before its extra bits
(43_blocks.md R203, R207). -/
def execCl16 (n : Nat) (e : BitVec 2) (s : State) : StepResult :=
  if s.lcnt = 0 then .next (raise .invalidCodeLengths (advance n s))
  else repeatLengths 16 e.toNat (3 + e.toNat) (s.lens.getD (s.lcnt.toNat - 1) 0) (bitOffset s) (advance (n + 2) s)

/-- CL_17: length 0 repeated 3 to 10 times (43_blocks.md R204). -/
def execCl17 (n : Nat) (e : BitVec 3) (s : State) : StepResult :=
  repeatLengths 17 e.toNat (3 + e.toNat) 0 (bitOffset s) (advance (n + 3) s)

/-- CL_18: length 0 repeated 11 to 138 times (43_blocks.md R204). -/
def execCl18 (n : Nat) (e : BitVec 7) (s : State) : StepResult :=
  repeatLengths 18 e.toNat (11 + e.toNat) 0 (bitOffset s) (advance (n + 7) s)

/-- `LENS[0..HLIT-1]`. -/
def litLengths (s : State) : List Nat := (s.lens.take s.hlit.toNat).map BitVec.toNat

/-- `LENS[HLIT..HLIT+HDIST-1]`. -/
def distLengths (s : State) : List Nat := ((s.lens.drop s.hlit.toNat).take s.hdist.toNat).map BitVec.toNat

/-- A slice is empty when all its lengths are 0 (43_blocks.md R205). -/
def sliceEmpty (lens : List Nat) : Bool := lens.all (· == 0)

/-- The DYN_TABLES step (43_blocks.md R205): it consumes no bits; the checks stand in the order of 60_exceptions.md R296,
and LIT_TAB keeps its new contents when the distance table cannot be built. -/
def dynTables (s : State) : State :=
  if s.lcnt.toNat < s.hlit.toNat + s.hdist.toNat then raise .incompleteCodeLengths s
  else if sliceEmpty (litLengths s) || sliceEmpty (distLengths s) then raise .incompleteCodeLengths s
  else
    match build (litLengths s) with
    | none => raise .invalidCodeLengths s
    | some lt =>
      match build (distLengths s) with
      | none => raise .invalidCodeLengths { s with litTab := lt }
      | some dt => { s with litTab := lt, distTab := dt, tsel := .dyn, st := .symbol }

end Sys2Proof.Machine
end

