-- ==== Sys2Proof/Machine/Envelope.lean ====
section
/-! DEFINITION. The zlib envelope: ZHDR and ZTRL (spec/42_zlib_envelope.md). -/

namespace Sys2Proof.Machine

/-- ZHDR (42_zlib_envelope.md R171 to R175): CMF and FLG are recorded and nothing is checked. -/
def execZhdr (cmf flg : BitVec 8) (s : State) : StepResult :=
  let b := bitOffset s
  let s1 := { skipBytes 2 s with zcmf := cmf, zflg := flg, hdrValid := true }
  let item := ItemKind.zlibHeader cmf flg (cmOf cmf) (cinfoOf cmf) (fcheckOf flg) (fdictOf flg) (flevelOf flg)
  andThen (appendRecord (pseudoBlock 0 .zlibHeader item b (b + 16) s1) s1) fun s2 =>
    .next { s2 with blkCount := 1, st := .bhdr }

/-- ZTRL (42_zlib_envelope.md R178 to R180): ADLER is recorded, not verified, and the decode is done. -/
def execZtrl (a : BitVec 32) (s : State) : StepResult :=
  let s1 := { skipBytes 4 s with adler := a, trlValid := true }
  let e := bitOffset s1
  andThen (appendRecord (pseudoBlock s1.blkCount .zlibTrailer (.zlibChecksum a) (e - 32) e s1) s1) fun s2 =>
    .next { s2 with st := .done }

end Sys2Proof.Machine
end

