-- ==== Sys2Proof/Machine/Length.lean ====
section
/-! DEFINITION. MATCH: a length row reads its distance half from the stream and completes in the same step
(spec/44_symbols.md R236, R248, R249). -/

namespace Sys2Proof.Machine

/-- The distance half at the cursor of `s`, read with the table `dt`: `Decode(DT)`, then `ReadBits(DIST_EXTRA[dsym])`
(44_symbols.md R236). -/
def distanceAt (dt : HuffTable) (s : State) : Coded := readCoded dt distExtra (stream s)

/-- MATCH (44_symbols.md R236): the length half `m` is consumed, then the distance half is read and carried out. When the
data ends inside the distance half, what was read of it stays consumed (R249). -/
def matchElement (dt : HuffTable) (m : LenPart) (s : State) : StepResult :=
  let s1 := advance m.bits s
  match distanceAt dt s1 with
  | .coded dsym n de => distanceElement m ⟨dsym, n, de⟩ s1
  | .endOfData n => .next (raise .unexpectedEndOfData (advance n s1))
  | .noMatch n => .next (raise .invalidHuffmanCode (advance n s1))

/-- LEN_257: length 3 (44_symbols.md R237). -/
def execLen257 (s : State) : StepResult := matchElement fixDist (fixedLenPart 257 0) s

/-- LEN_258: length 4 (44_symbols.md R237). -/
def execLen258 (s : State) : StepResult := matchElement fixDist (fixedLenPart 258 0) s

/-- LEN_259: length 5 (44_symbols.md R237). -/
def execLen259 (s : State) : StepResult := matchElement fixDist (fixedLenPart 259 0) s

/-- LEN_260: length 6 (44_symbols.md R237). -/
def execLen260 (s : State) : StepResult := matchElement fixDist (fixedLenPart 260 0) s

/-- LEN_261: length 7 (44_symbols.md R237). -/
def execLen261 (s : State) : StepResult := matchElement fixDist (fixedLenPart 261 0) s

/-- LEN_262: length 8 (44_symbols.md R237). -/
def execLen262 (s : State) : StepResult := matchElement fixDist (fixedLenPart 262 0) s

/-- LEN_263: length 9 (44_symbols.md R237). -/
def execLen263 (s : State) : StepResult := matchElement fixDist (fixedLenPart 263 0) s

/-- LEN_264: length 10 (44_symbols.md R237). -/
def execLen264 (s : State) : StepResult := matchElement fixDist (fixedLenPart 264 0) s

/-- LEN_265: length 11 plus 1 extra bit (44_symbols.md R237). -/
def execLen265 (le : BitVec 1) (s : State) : StepResult := matchElement fixDist (fixedLenPart 265 le.toNat) s

/-- LEN_266: length 13 plus 1 extra bit (44_symbols.md R237). -/
def execLen266 (le : BitVec 1) (s : State) : StepResult := matchElement fixDist (fixedLenPart 266 le.toNat) s

/-- LEN_267: length 15 plus 1 extra bit (44_symbols.md R237). -/
def execLen267 (le : BitVec 1) (s : State) : StepResult := matchElement fixDist (fixedLenPart 267 le.toNat) s

/-- LEN_268: length 17 plus 1 extra bit (44_symbols.md R237). -/
def execLen268 (le : BitVec 1) (s : State) : StepResult := matchElement fixDist (fixedLenPart 268 le.toNat) s

/-- LEN_269: length 19 plus 2 extra bits (44_symbols.md R237). -/
def execLen269 (le : BitVec 2) (s : State) : StepResult := matchElement fixDist (fixedLenPart 269 le.toNat) s

/-- LEN_270: length 23 plus 2 extra bits (44_symbols.md R237). -/
def execLen270 (le : BitVec 2) (s : State) : StepResult := matchElement fixDist (fixedLenPart 270 le.toNat) s

/-- LEN_271: length 27 plus 2 extra bits (44_symbols.md R237). -/
def execLen271 (le : BitVec 2) (s : State) : StepResult := matchElement fixDist (fixedLenPart 271 le.toNat) s

/-- LEN_272: length 31 plus 2 extra bits (44_symbols.md R237). -/
def execLen272 (le : BitVec 2) (s : State) : StepResult := matchElement fixDist (fixedLenPart 272 le.toNat) s

/-- LEN_273: length 35 plus 3 extra bits (44_symbols.md R237). -/
def execLen273 (le : BitVec 3) (s : State) : StepResult := matchElement fixDist (fixedLenPart 273 le.toNat) s

/-- LEN_274: length 43 plus 3 extra bits (44_symbols.md R237). -/
def execLen274 (le : BitVec 3) (s : State) : StepResult := matchElement fixDist (fixedLenPart 274 le.toNat) s

/-- LEN_275: length 51 plus 3 extra bits (44_symbols.md R237). -/
def execLen275 (le : BitVec 3) (s : State) : StepResult := matchElement fixDist (fixedLenPart 275 le.toNat) s

/-- LEN_276: length 59 plus 3 extra bits (44_symbols.md R237). -/
def execLen276 (le : BitVec 3) (s : State) : StepResult := matchElement fixDist (fixedLenPart 276 le.toNat) s

/-- LEN_277: length 67 plus 4 extra bits (44_symbols.md R237). -/
def execLen277 (le : BitVec 4) (s : State) : StepResult := matchElement fixDist (fixedLenPart 277 le.toNat) s

/-- LEN_278: length 83 plus 4 extra bits (44_symbols.md R237). -/
def execLen278 (le : BitVec 4) (s : State) : StepResult := matchElement fixDist (fixedLenPart 278 le.toNat) s

/-- LEN_279: length 99 plus 4 extra bits (44_symbols.md R237). -/
def execLen279 (le : BitVec 4) (s : State) : StepResult := matchElement fixDist (fixedLenPart 279 le.toNat) s

/-- LEN_280: length 115 plus 4 extra bits (44_symbols.md R237). -/
def execLen280 (le : BitVec 4) (s : State) : StepResult := matchElement fixDist (fixedLenPart 280 le.toNat) s

/-- LEN_281: length 131 plus 5 extra bits (44_symbols.md R237). -/
def execLen281 (le : BitVec 5) (s : State) : StepResult := matchElement fixDist (fixedLenPart 281 le.toNat) s

/-- LEN_282: length 163 plus 5 extra bits (44_symbols.md R237). -/
def execLen282 (le : BitVec 5) (s : State) : StepResult := matchElement fixDist (fixedLenPart 282 le.toNat) s

/-- LEN_283: length 195 plus 5 extra bits (44_symbols.md R237). -/
def execLen283 (le : BitVec 5) (s : State) : StepResult := matchElement fixDist (fixedLenPart 283 le.toNat) s

/-- LEN_284: length 227 plus 5 extra bits (44_symbols.md R237). -/
def execLen284 (le : BitVec 5) (s : State) : StepResult := matchElement fixDist (fixedLenPart 284 le.toNat) s

/-- LEN_285: length 258 (44_symbols.md R237). -/
def execLen285 (s : State) : StepResult := matchElement fixDist (fixedLenPart 285 0) s

/-- MATCH_DYN: a length symbol of the block's own table; its distance is read with DIST_TAB (44_symbols.md R230, R236). -/
def execMatchDyn (n sym le : Nat) (s : State) : StepResult :=
  matchElement s.distTab ⟨sym, le, n + lenExtra sym⟩ s

end Sys2Proof.Machine
end

