-- ==== Sys2Proof/Machine/Literal.lean ====
section
/-! DEFINITION. Literals, end of block and the invalid literal/length symbols (spec/44_symbols.md R230 to R232, R240). -/

namespace Sys2Proof.Machine

/-- A literal of `n` code bits: OutAppend, then the Literal item (44_symbols.md R231). -/
def literalElement (n : Nat) (b : Byte) (s : State) : StepResult :=
  andThen (outAppend b (advance n s)) fun s1 => emitItem (.literal b s.outLen) (bitOffset s) s1

/-- End of block of `n` code bits: the EndOfBlock item, then BLOCK_END (44_symbols.md R232). -/
def endOfBlockElement (n : Nat) (s : State) : StepResult :=
  andThen (emitItem .endOfBlock (bitOffset s) (advance n s)) fun s1 => .next { s1 with st := .blockEnd }

/-- A literal/length symbol without a meaning raises InvalidHuffmanCode after its `n` code bits (44_symbols.md R240). -/
def badSymbolElement (n : Nat) (s : State) : StepResult := .next (raise .invalidHuffmanCode (advance n s))

/-- LIT8A: fixed literals 0–15, 8 bits (30_encoding.md R98). -/
def execLit8a (x : BitVec 4) (s : State) : StepResult := literalElement 8 (lit8aByte x) s

/-- LIT8B: fixed literals 16–79, 8 bits (30_encoding.md R98). -/
def execLit8b (x : BitVec 6) (s : State) : StepResult := literalElement 8 (lit8bByte x) s

/-- LIT8C: fixed literals 80–143, 8 bits (30_encoding.md R98). -/
def execLit8c (x : BitVec 6) (s : State) : StepResult := literalElement 8 (lit8cByte x) s

/-- LIT9A: fixed literals 144–159, 9 bits (30_encoding.md R98). -/
def execLit9a (x : BitVec 4) (s : State) : StepResult := literalElement 9 (lit9aByte x) s

/-- LIT9B: fixed literals 160–191, 9 bits (30_encoding.md R98). -/
def execLit9b (x : BitVec 5) (s : State) : StepResult := literalElement 9 (lit9bByte x) s

/-- LIT9C: fixed literals 192–255, 9 bits (30_encoding.md R98). -/
def execLit9c (x : BitVec 6) (s : State) : StepResult := literalElement 9 (lit9cByte x) s

/-- LIT_DYN: a literal of the block's own table. -/
def execLitDyn (n : Nat) (b : BitVec 8) (s : State) : StepResult := literalElement n b s

/-- EOB: the fixed code 0000000. -/
def execEob (s : State) : StepResult := endOfBlockElement 7 s

/-- EOB_DYN: end of block of the block's own table. -/
def execEobDyn (n : Nat) (s : State) : StepResult := endOfBlockElement n s

/-- BAD_LIT_286: the fixed code 0xC6. -/
def execBadLit286 (s : State) : StepResult := badSymbolElement 8 s

/-- BAD_LIT_287: the fixed code 0xC7. -/
def execBadLit287 (s : State) : StepResult := badSymbolElement 8 s

/-- BAD_LIT_DYN: symbol 286 or 287 of the block's own table. -/
def execBadLitDyn (n _sym : Nat) (s : State) : StepResult := badSymbolElement n s

end Sys2Proof.Machine
end

