-- ==== Sys2Proof/Machine/Dispatch.lean ====
section
/-! DEFINITION. The dispatch: one arm for each row of the opcode table. -/

namespace Sys2Proof.Machine

open Sys2Proof

def exec (i : Instr) (s : State) : Host.Outcome State Fault Refusal :=
  match i with
  | .zhdr cmf flg => Sys2Proof.Machine.execZhdr cmf flg s
  | .bhdrStored final => Sys2Proof.Machine.execBhdrStored final s
  | .bhdrFixed final => Sys2Proof.Machine.execBhdrFixed final s
  | .bhdrDynamic final => Sys2Proof.Machine.execBhdrDynamic final s
  | .bhdrReserved final => Sys2Proof.Machine.execBhdrReserved final s
  | .sthdr len nlen => Sys2Proof.Machine.execSthdr len nlen s
  | .stbyte b => Sys2Proof.Machine.execStbyte b s
  | .dynhdr h d c cl => Sys2Proof.Machine.execDynhdr h d c cl s
  | .clLen n v => Sys2Proof.Machine.execClLen n v s
  | .cl16 n e => Sys2Proof.Machine.execCl16 n e s
  | .cl17 n e => Sys2Proof.Machine.execCl17 n e s
  | .cl18 n e => Sys2Proof.Machine.execCl18 n e s
  | .lit8a x => Sys2Proof.Machine.execLit8a x s
  | .lit8b x => Sys2Proof.Machine.execLit8b x s
  | .lit8c x => Sys2Proof.Machine.execLit8c x s
  | .lit9a x => Sys2Proof.Machine.execLit9a x s
  | .lit9b x => Sys2Proof.Machine.execLit9b x s
  | .lit9c x => Sys2Proof.Machine.execLit9c x s
  | .eob => Sys2Proof.Machine.execEob s
  | .len257 => Sys2Proof.Machine.execLen257 s
  | .len258 => Sys2Proof.Machine.execLen258 s
  | .len259 => Sys2Proof.Machine.execLen259 s
  | .len260 => Sys2Proof.Machine.execLen260 s
  | .len261 => Sys2Proof.Machine.execLen261 s
  | .len262 => Sys2Proof.Machine.execLen262 s
  | .len263 => Sys2Proof.Machine.execLen263 s
  | .len264 => Sys2Proof.Machine.execLen264 s
  | .len265 le => Sys2Proof.Machine.execLen265 le s
  | .len266 le => Sys2Proof.Machine.execLen266 le s
  | .len267 le => Sys2Proof.Machine.execLen267 le s
  | .len268 le => Sys2Proof.Machine.execLen268 le s
  | .len269 le => Sys2Proof.Machine.execLen269 le s
  | .len270 le => Sys2Proof.Machine.execLen270 le s
  | .len271 le => Sys2Proof.Machine.execLen271 le s
  | .len272 le => Sys2Proof.Machine.execLen272 le s
  | .len273 le => Sys2Proof.Machine.execLen273 le s
  | .len274 le => Sys2Proof.Machine.execLen274 le s
  | .len275 le => Sys2Proof.Machine.execLen275 le s
  | .len276 le => Sys2Proof.Machine.execLen276 le s
  | .len277 le => Sys2Proof.Machine.execLen277 le s
  | .len278 le => Sys2Proof.Machine.execLen278 le s
  | .len279 le => Sys2Proof.Machine.execLen279 le s
  | .len280 le => Sys2Proof.Machine.execLen280 le s
  | .len281 le => Sys2Proof.Machine.execLen281 le s
  | .len282 le => Sys2Proof.Machine.execLen282 le s
  | .len283 le => Sys2Proof.Machine.execLen283 le s
  | .len284 le => Sys2Proof.Machine.execLen284 le s
  | .len285 => Sys2Proof.Machine.execLen285 s
  | .badLit286 => Sys2Proof.Machine.execBadLit286 s
  | .badLit287 => Sys2Proof.Machine.execBadLit287 s
  | .dist0 m => Sys2Proof.Machine.execDist0 m s
  | .dist1 m => Sys2Proof.Machine.execDist1 m s
  | .dist2 m => Sys2Proof.Machine.execDist2 m s
  | .dist3 m => Sys2Proof.Machine.execDist3 m s
  | .dist4 m de => Sys2Proof.Machine.execDist4 m de s
  | .dist5 m de => Sys2Proof.Machine.execDist5 m de s
  | .dist6 m de => Sys2Proof.Machine.execDist6 m de s
  | .dist7 m de => Sys2Proof.Machine.execDist7 m de s
  | .dist8 m de => Sys2Proof.Machine.execDist8 m de s
  | .dist9 m de => Sys2Proof.Machine.execDist9 m de s
  | .dist10 m de => Sys2Proof.Machine.execDist10 m de s
  | .dist11 m de => Sys2Proof.Machine.execDist11 m de s
  | .dist12 m de => Sys2Proof.Machine.execDist12 m de s
  | .dist13 m de => Sys2Proof.Machine.execDist13 m de s
  | .dist14 m de => Sys2Proof.Machine.execDist14 m de s
  | .dist15 m de => Sys2Proof.Machine.execDist15 m de s
  | .dist16 m de => Sys2Proof.Machine.execDist16 m de s
  | .dist17 m de => Sys2Proof.Machine.execDist17 m de s
  | .dist18 m de => Sys2Proof.Machine.execDist18 m de s
  | .dist19 m de => Sys2Proof.Machine.execDist19 m de s
  | .dist20 m de => Sys2Proof.Machine.execDist20 m de s
  | .dist21 m de => Sys2Proof.Machine.execDist21 m de s
  | .dist22 m de => Sys2Proof.Machine.execDist22 m de s
  | .dist23 m de => Sys2Proof.Machine.execDist23 m de s
  | .dist24 m de => Sys2Proof.Machine.execDist24 m de s
  | .dist25 m de => Sys2Proof.Machine.execDist25 m de s
  | .dist26 m de => Sys2Proof.Machine.execDist26 m de s
  | .dist27 m de => Sys2Proof.Machine.execDist27 m de s
  | .dist28 m de => Sys2Proof.Machine.execDist28 m de s
  | .dist29 m de => Sys2Proof.Machine.execDist29 m de s
  | .badDist30 m => Sys2Proof.Machine.execBadDist30 m s
  | .badDist31 m => Sys2Proof.Machine.execBadDist31 m s
  | .litDyn n b => Sys2Proof.Machine.execLitDyn n b s
  | .eobDyn n => Sys2Proof.Machine.execEobDyn n s
  | .matchDyn n sym le => Sys2Proof.Machine.execMatchDyn n sym le s
  | .distDyn m n sym de => Sys2Proof.Machine.execDistDyn m n sym de s
  | .badLitDyn n sym => Sys2Proof.Machine.execBadLitDyn n sym s
  | .badDistDyn m n sym => Sys2Proof.Machine.execBadDistDyn m n sym s
  | .ztrl a => Sys2Proof.Machine.execZtrl a s

end Sys2Proof.Machine
end

