-- ==== Sys2Proof/Machine/Fetch.lean ====
section
/-! DEFINITION. Fetching: which element ST expects at the cursor, what a truncated or unusable one
does, and how a word is placed there
(spec/45_engine.md R261, 00_scope.md R12, 40_bitreader.md R128, R129). -/

namespace Sys2Proof.Machine

/-- The context ST selects; `none` in the states whose step consumes no element (45_engine.md R261). -/
def contextOf (s : State) : Option Ctx :=
  match s.st with
  | .idle | .dynTables | .blockEnd | .done | .error => none
  | .zhdr => some (.zhdr (padLen s))
  | .bhdr => some .bhdr
  | .storedHdr => some (.sthdr (padLen s))
  | .storedData => some (.stbyte (padLen s))
  | .dynHdr => some .dynhdr
  | .dynLens => some (.clEntry s.clTab (s.lcnt != 0))
  | .symbol =>
    match s.tsel with
    | .fixed => some .symFixed
    | .dyn => some (.symDyn s.litTab)
  | .ztrl => some (.ztrl (padLen s))

/-- The element at the cursor. -/
def fetch (s : State) : Option Decoded := (contextOf s).map fun ctx => decode ctx (stream s)

/-- The register writes of a truncated element: the fields read before the failing read are kept
(00_scope.md R12, 43_blocks.md R186, R192, R200). CLL is set to 0 once HCLEN has been read (R200). -/
def keepPartial (p : PartialRead) (s : State) : State :=
  match p with
  | .nothing => s
  | .bfinal f => { s with bfinal := f }
  | .slen v => { s with slen := v }
  | .hlit h => { s with hlit := BitVec.ofNat 9 (hlitOf h) }
  | .hlitHdist h d => { s with hlit := BitVec.ofNat 9 (hlitOf h), hdist := BitVec.ofNat 6 (hdistOf d) }
  | .clls h d c cl =>
    { s with
      hlit := BitVec.ofNat 9 (hlitOf h), hdist := BitVec.ofNat 6 (hdistOf d), hclen := BitVec.ofNat 5 (hclenOf c)
      cll := cllOf cl }

/-- A truncated element: `n` bits stay consumed, the fields read keep their values, and UnexpectedEndOfData is raised
(40_bitreader.md R128, R129). -/
def truncated (p : PartialRead) (n : Nat) (s : State) : State := raise .unexpectedEndOfData (keepPartial p (advance n s))

/-- A code no element has: InvalidHuffmanCode after its `n` bits (41_huffman.md R147, log 20). -/
def unusable (n : Nat) (s : State) : State := raise .invalidHuffmanCode (advance n s)

/-! ## Placing a word where the next step fetches it -/

/-- The bytes that hold a bit sequence, first bit in bit 0 of the first byte: `n` bytes, 0 where the bits end. -/
def packBytes : Nat → Bits → List Byte
  | 0, _ => []
  | n + 1, bs => BitVec.ofNat 8 (Nat.ofBits (fun i : Fin 8 => bs.getD i.val false)) :: packBytes n (bs.drop 8)

/-- ST and TSEL as the context `ctx` needs them, with the tables it names. -/
def enterContext (ctx : Ctx) (s : State) : State :=
  match ctx with
  | .zhdr _ => { s with st := .zhdr }
  | .bhdr => { s with st := .bhdr }
  | .sthdr _ => { s with st := .storedHdr }
  | .stbyte _ => { s with st := .storedData }
  | .dynhdr => { s with st := .dynHdr }
  | .clEntry t _ => { s with st := .dynLens, clTab := t }
  | .symFixed => { s with st := .symbol, tsel := .fixed }
  | .symDyn t => { s with st := .symbol, tsel := .dyn, litTab := t }
  | .distFixed _ => { s with st := .symbol, tsel := .fixed }
  | .distDyn t _ => { s with st := .symbol, tsel := .dyn, distTab := t }
  | .ztrl _ => { s with st := .ztrl }

/-- The bits a context's word stands in: a fixed distance half stands behind the length code of LEN_257, since a MATCH is
one step (log 8). -/
def contextBits (w : Ctx × Bits) : Bits :=
  match w.1 with
  | .distFixed _ => codeBits 7 1 ++ w.2
  | _ => w.2

end Sys2Proof.Machine
end

