-- ==== Sys2Proof/Machine/HostPort.lean ====
section
/-! DEFINITION. The host's side: reads and writes of the host registers and of the memories, and the moves a host may make
(spec/10_state.md R28 to R33, 20_memory.md R80, 45_engine.md R275, 70_reset_and_hazards.md R320 to R325). -/

namespace Sys2Proof.Machine

/-- The host address of offset `k` of a space, where the platform has placed the spaces (20_memory.md R79). An
offset past the space's region has no host address (DESIGN CHOICE, log 23). -/
def hostAddress (s : State) (sp : Space) (k : Nat) : Option Nat :=
  s.params.map.bind fun m => if k < (m.region sp).size then some ((m.region sp).base + k) else none

/-- The space a host address lies in, and its offset there (20_memory.md R79, log 23). -/
def spaceAt (s : State) (addr : Nat) : Option (Space × Nat) :=
  s.params.map.bind fun m =>
    ([.input, .output, .trace, .registers].find? fun sp => (m.region sp).has addr).map fun sp =>
      (sp, addr - (m.region sp).base)

/-- A value as a host register of P_REG_W bits carries it (10_state.md R28, log 12). -/
def regValue (s : State) (v : Nat) : Nat :=
  match s.params.regW with
  | none => v
  | some w => v % 2 ^ w

/-- What a host register shows (10_state.md R28 to R33). Reserved indices and CTRL show 0. -/
def hostReg (s : State) (index : Nat) : Nat :=
  match index with
  | 0x0 => 0
  | 0x1 => regValue s (statusWord s)
  | 0x2 => regValue s s.inLen
  | 0x3 => regValue s (errorNumber s.errCode)
  | 0x4 => regValue s s.errPos
  | 0x5 => regValue s s.errBlk
  | 0x6 => regValue s s.outLen
  | 0x7 => if s.hdrValid then (zhdrWord s.zcmf s.zflg).toNat else 0
  | 0x8 => if s.trlValid then s.adler.toNat else 0
  | 0x9 => regValue s s.blkCount
  | 0xA => regValue s (bitOffset s)
  | 0xB => regValue s (flagsWord s)
  | _ => 0

/-- The host's read of a register: STATUS at any time, any other only outside BUSY; `none` is a read the host has no move
for (45_engine.md R275). Reading changes nothing (log 22). -/
def hostReadReg (s : State) (index : Nat) : Option Nat :=
  if index = 0x1 ∨ busy s = false then some (hostReg s index) else none

/-- The host's read of OUT[i], `i < OUT_LEN`, outside BUSY (20_memory.md R80, 45_engine.md R275). -/
def hostReadOut (s : State) (i : Nat) : Option Byte :=
  if busy s = false ∧ i < s.outLen then some (outRead s i) else none

/-- The host's read of a block record outside BUSY (20_memory.md R80, 45_engine.md R275). -/
def hostReadRecord (s : State) (i : Nat) : Option BlockRecord :=
  if busy s = false ∧ i < s.blkCount then s.trace[i]? else none

/-- A write of CTRL: RESET first, START only outside BUSY (10_state.md R29, 70_reset_and_hazards.md R321). -/
def writeCtrl (v : Nat) (s : State) : State :=
  if v.testBit 1 then hostReset s
  else if v.testBit 0 && !busy s then startDecode s
  else s

/-- A write of IN_LEN: ignored while BUSY, refused above P_MAX_IN (10_state.md R31). -/
def writeInLen (v : Nat) (s : State) : State :=
  if busy s then s else if Params.within s.params.maxIn v then { s with inLen := v } else s

/-- A write of a host register; a write to a read-only or reserved index is ignored (10_state.md R28). -/
def writeHostReg (index value : Nat) (s : State) : State :=
  match index with
  | 0x0 => writeCtrl (regValue s value) s
  | 0x2 => writeInLen (regValue s value) s
  | _ => s

/-- A write of one byte of IN: no move while BUSY (45_engine.md R275, log 14), and only at an address IN has (log 13). -/
def writeInByte (addr : Nat) (b : Byte) (s : State) : StepResult :=
  if busy s then .refused .hostWriteWhileBusy
  else if Params.reached s.params.maxIn addr then .fault .noSuchInAddress
  else .next { s with inMem := writeByteAt s.inMem addr b }

end Sys2Proof.Machine
end

