-- ==== Sys2Proof/Machine/Engine.lean ====
section
/-! DEFINITION. The decode engine: the core's step selected by ST, and the interleaving of host moves with core steps
(spec/45_engine.md R260, R261, R275). -/

namespace Sys2Proof.Machine

/-- Run what was fetched. -/
def runDecoded (d : Decoded) (s : State) : StepResult :=
  match d with
  | .elem i _ => exec i s
  | .endOfData p n => .next (truncated p n s)
  | .unusable n => .next (unusable n s)

/-- The core's step, selected by ST (45_engine.md R261). IDLE, DONE and ERROR have no step. -/
def coreStep (s : State) : StepResult :=
  match s.st with
  | .dynTables => .next (dynTables s)
  | .blockEnd => .next (blockEnd s)
  | _ =>
    match fetch s with
    | some d => runDecoded d s
    | none => .fault .noStep

/-- A turn the host leaves to the core: the core's step, or no move at all where it has none (45_engine.md R260, R261,
70_reset_and_hazards.md R331). -/
def coreTurn (s : State) : StepResult :=
  match coreStep s with
  | .next t => .next t
  | .fault _ => .next s
  | .refused r => .refused r

/-- Make the first waiting host move (45_engine.md R275). -/
def hostMove (m : HostMove) (s : State) : StepResult :=
  match m with
  | .writeIn addr b => writeInByte addr b s
  | .writeReg index value => .next (writeHostReg index value s)
  | .coreTurn => coreTurn s

/-- One step of the machine: the host's next waiting move, and the core's own step when none waits (log 1). -/
def engineStep (s : State) : StepResult :=
  match s.host with
  | [] => coreStep s
  | m :: ms => hostMove m { s with host := ms }

end Sys2Proof.Machine
end

