-- ==== Sys2Proof/Machine/Step.lean ====
section
/-! DEFINITION. The one step of the machine, and the placing of an instruction where the next step fetches it (log 8). -/

namespace Sys2Proof.Machine

/-- One step. -/
def step (s : State) : Host.Outcome State Fault Refusal := engineStep s

/-- `s` with a word of the opcode table placed where the next step fetches: 16 bytes of IN from the cursor's byte on, the
cursor at its bit 0, IN_LEN at their end, ST and TSEL as the word's context needs, and no host move waiting. -/
def State.withFetchWord (s : State) (nbits w : Nat) : State :=
  let cw := tableWord nbits w
  { enterContext cw.1 s with
    inMem := writeBytesAt s.inMem s.curByte (packBytes 16 (contextBits cw)), inLen := s.curByte + 16, curBit := 0,
    host := [] }

end Sys2Proof.Machine
end

