-- ==== Sys2Proof/Safety.lean ====
section
/-! DEFINITION. What the claims are stated with: good tables, the invariants of the state, of the block list and of the
output, what a record's bits are, and the states a run can reach. -/

namespace Sys2Proof.Machine

/-! ## Canonical tables (41_huffman.md R140, R143) -/

/-- The code of `e` is a prefix of the code of `f`, codes being read most significant bit first. -/
def CodeEntry.isPrefixOf (e f : CodeEntry) : Prop := e.len ≤ f.len ∧ f.code / 2 ^ (f.len - e.len) = e.code

/-- Every code has 1 to 15 bits and fits them. -/
def codesFit (t : HuffTable) : Prop := ∀ e ∈ t, 1 ≤ e.len ∧ e.len ≤ 15 ∧ e.code < 2 ^ e.len

/-- No code of the table is a prefix of another. -/
def prefixFree (t : HuffTable) : Prop := t.Pairwise fun e f => ¬ e.isPrefixOf f ∧ ¬ f.isPrefixOf e

/-- The table has at most one code for a symbol. -/
def oneCodeEach (t : HuffTable) : Prop := t.Pairwise fun e f => e.sym ≠ f.sym

/-- Every sequence of 15 bits begins with a code of the table. -/
def complete (t : HuffTable) : Prop := ∀ bs : Bits, bs.length = 15 → ∃ sym n rest, decodeSymbol t bs = .found sym n rest

/-! ## The invariant of the state (10_state.md R22, R25, R27, R32, R38; 45_engine.md R261; 60_exceptions.md R300) -/

/-- The states in which a DEFLATE block record is open (45_engine.md R265, R268). -/
def blockIsOpen : CoreState → Bool
  | .storedHdr | .storedData | .dynHdr | .dynLens | .dynTables | .symbol | .blockEnd => true
  | .idle | .zhdr | .bhdr | .ztrl | .done | .error => false

/-- Every cell of the memory has an address below `n`. -/
def cellsBelow (n : Nat) (m : Memory) : Prop := ∀ c ∈ m, c.1 < n

/-- HLIT in 257..288 and HDIST in 1..32 (10_state.md R22). -/
def countsInRange (s : State) : Prop :=
  257 ≤ s.hlit.toNat ∧ s.hlit.toNat ≤ 288 ∧ 1 ≤ s.hdist.toNat ∧ s.hdist.toNat ≤ 32

/-- What holds besides in some of the states. -/
structure StateInv (s : State) : Prop where
  /-- ZHDR is the first step of a decode: cursor, block list and output are as START left them. -/
  zhdr : s.st = .zhdr → bitOffset s = 0 ∧ s.blkCount = 0 ∧ s.outLen = 0
  idle : s.st = .idle → s.blkCount = 0 ∧ s.outLen = 0
  /-- Past ZHDR the list holds at least the ZlibHeader record. -/
  started : busy s = true → s.st ≠ .zhdr → 0 < s.blkCount
  stored : s.st = .storedHdr ∨ s.st = .storedData → s.btype = 0
  dynamic : s.st = .dynHdr ∨ s.st = .dynLens ∨ s.st = .dynTables → s.btype = 2
  storedData : s.st = .storedData → s.srem ≠ 0 ∧ s.curBit = 0
  dynLens : s.st = .dynLens →
    countsInRange s ∧ s.lcnt.toNat < s.hlit.toNat + s.hdist.toNat ∧ build (s.cll.map BitVec.toNat) = some s.clTab
  dynTables : s.st = .dynTables → countsInRange s ∧ s.lcnt.toNat = s.hlit.toNat + s.hdist.toNat
  fixedSymbol : s.st = .symbol → s.tsel = .fixed → s.btype = 1
  dynSymbol : s.st = .symbol → s.tsel = .dyn →
    s.btype = 2 ∧ countsInRange s ∧ build (litLengths s) = some s.litTab ∧ build (distLengths s) = some s.distTab
  blockEnd : s.st = .blockEnd → s.btype = 0 ∨ s.btype = 1 ∨ s.btype = 2
  ztrl : s.st = .ztrl → s.bfinal = true

/-- The invariant of the state. -/
structure Inv (s : State) : Prop where
  params_ok : s.params.ok = true
  inMem_wf : s.inMem.wf
  out_wf : s.out.wf
  /-- OUT has the addresses 0..OUT_LEN-1 and no other (R38). -/
  out_below : cellsBelow s.outLen s.out
  cll_length : s.cll.length = 19
  lens_length : s.lens.length = 320
  trace_length : s.trace.length = s.blkCount
  inLen_within : Params.within s.params.maxIn s.inLen = true
  outLen_within : Params.within s.params.maxOut s.outLen = true
  blkCount_within : Params.within s.params.maxBlocks s.blkCount = true
  items_within : ∀ r ∈ s.trace, Params.within s.params.maxItems r.items.length = true
  /-- The cursor never passes the end of the input (R25). The host may write IN_LEN again once the core is not BUSY
  (log 21). -/
  cursor_le : busy s = true → bitOffset s ≤ 8 * s.inLen
  open_iff : s.blkOpen = blockIsOpen s.st
  error_iff : s.errCode = .none ↔ s.st ≠ .error
  /-- Outside ERROR the position and the block of the error are 0 (R32). -/
  error_zero : s.st ≠ .error → s.errPos = 0 ∧ s.errBlk = 0
  header_iff : s.hdrValid = true ↔ 0 < s.blkCount
  trailer_iff : s.trlValid = true ↔ s.st = .done ∧ 0 < s.blkCount
  byState : StateInv s

/-! ## The invariant of the block list (10_state.md R53, 45_engine.md R267, R280 to R282) -/

/-- Where a record's first item stands: behind the header bits of its kind (45_engine.md R280). -/
def headerEnd (r : BlockRecord) : Nat :=
  match r.kind with
  | .zlibHeader | .zlibTrailer => r.startBit
  | .fixedHuffman | .dynamicHuffman => r.startBit + 3
  | .stored => 8 * ((r.startBit + 3 + 7) / 8) + 32

/-- The items take the bits from `a` up to `b`, each at least one, with no gap and no overlap (R280). -/
def itemsTile : Nat → List Item → Nat → Prop
  | a, [], b => a = b
  | a, it :: l, b => it.bitStart = a ∧ a < it.bitEnd ∧ itemsTile it.bitEnd l b

/-- The items of a partial record: none, or they end where the failing element began or before it (R280). -/
def partialTile (r : BlockRecord) (endBit : Nat) : Prop :=
  r.items = [] ∨ ∃ b, b ≤ endBit ∧ itemsTile (headerEnd r) r.items b

/-- A pseudo-block's kind. -/
def isPseudo (k : BlockKind) : Prop := k = .zlibHeader ∨ k = .zlibTrailer

/-- A closed record: its byte range (R281) and its bits (R280). -/
def closedOk (r : BlockRecord) (c : BlockClose) : Prop :=
  c.byteStart = r.startBit / 8 ∧ c.byteEnd = (c.endBit + 7) / 8 ∧ c.sizeBytes = c.byteEnd - c.byteStart ∧
    if r.isPartial then partialTile r c.endBit else itemsTile (headerEnd r) r.items c.endBit

/-- The start of the record after one that ended at `e`: there (R282), and for the trailer on the next byte boundary. -/
def nextStart (k : BlockKind) (e : Nat) : Nat := if k = .zlibTrailer then 8 * ((e + 7) / 8) else e

/-- The open record: it is the current block's, and its items reach the cursor. -/
def openOk (s : State) (r : BlockRecord) : Prop :=
  r.final = some s.bfinal ∧ r.kind = blockKindOf s.btype ∧ r.startBit = s.blkStart ∧ r.outStart = s.blkOutStart ∧
    (if s.st = .storedHdr ∨ s.st = .dynHdr then r.items = [] ∧ bitOffset s = r.startBit + 3
     else itemsTile (headerEnd r) r.items (bitOffset s))

/-- The invariant of the block list. -/
structure TraceInv (s : State) : Prop where
  numbered : ∀ (i : Nat) (r : BlockRecord), s.trace[i]? = some r → r.index = i
  itemsNumbered : ∀ r ∈ s.trace, ∀ (j : Nat) (it : Item), r.items[j]? = some it → it.blockIndex = r.index ∧ it.itemIndex = j
  /-- Only the last record can be open, and it is open exactly while BLK_OPEN = 1. -/
  open_last : ∀ (i : Nat) (r : BlockRecord), s.trace[i]? = some r → (r.closed = none ↔ s.blkOpen = true ∧ i + 1 = s.blkCount)
  /-- Only the last record can be partial, and only in ERROR (R301). -/
  partial_last : ∀ (i : Nat) (r : BlockRecord), s.trace[i]? = some r → r.isPartial = true → s.st = .error ∧ i + 1 = s.blkCount
  closed_ok : ∀ r ∈ s.trace, ∀ c, r.closed = some c → closedOk r c
  header_first : ∀ (i : Nat) (r : BlockRecord), s.trace[i]? = some r → (r.kind = .zlibHeader ↔ i = 0)
  /-- The ZlibHeader record spans the bits 0..16. -/
  header_span : ∀ r : BlockRecord, s.trace[0]? = some r → r.startBit = 0 ∧ r.closed.map BlockClose.endBit = some 16
  trailer_last : ∀ (i : Nat) (r : BlockRecord), s.trace[i]? = some r → (r.kind = .zlibTrailer ↔ s.trlValid = true ∧ i + 1 = s.blkCount)
  final_iff : ∀ r ∈ s.trace, (r.final = none ↔ isPseudo r.kind)
  chain : ∀ (i : Nat) (r r' : BlockRecord) (c : BlockClose), s.trace[i]? = some r → s.trace[i + 1]? = some r' → r.closed = some c →
    r'.startBit = nextStart r'.kind c.endBit
  /-- Between blocks the cursor stands where the last record ended. -/
  between : s.st = .bhdr ∨ s.st = .ztrl →
    ∀ r : BlockRecord, s.trace.getLast? = some r → r.closed.map BlockClose.endBit = some (bitOffset s)
  current : s.blkOpen = true → ∀ r : BlockRecord, s.trace.getLast? = some r → openOk s r

/-! ## The composition of the output (45_engine.md R278) -/

/-- The bytes an item contributes to OUT (10_state.md R42). -/
def itemBytes : ItemKind → List Byte
  | .literal symbol _ => [symbol]
  | .backReference _ _ resolvedBytes _ _ _ _ _ => resolvedBytes
  | .zlibHeader _ _ _ _ _ _ _ | .zlibChecksum _ | .endOfBlock | .dynamicHeader _ _ _ _
  | .dynamicCodeLengthEntry _ _ _ _ _ => []

/-- `outIndex` of an item that has one (10_state.md R42). -/
def itemOutIndex : ItemKind → Option Nat
  | .literal _ outIndex => some outIndex
  | .backReference _ _ _ _ _ _ _ outIndex => some outIndex
  | .zlibHeader _ _ _ _ _ _ _ | .zlibChecksum _ | .endOfBlock | .dynamicHeader _ _ _ _
  | .dynamicCodeLengthEntry _ _ _ _ _ => none

/-- The bytes of a list of items, in item order. -/
def itemsBytes (l : List Item) : List Byte := l.flatMap fun it => itemBytes it.kind

/-- The bytes of a list of records, in order. -/
def recordsBytes (l : List BlockRecord) : List Byte := l.flatMap fun r => itemsBytes r.items

/-- OUT[0..OUT_LEN-1]. -/
def outBytes (s : State) : List Byte := readBytesAt s.out 0 s.outLen

/-- The invariant of the output. -/
structure OutInv (s : State) : Prop where
  /-- OUT is the concatenation of what the items of all records contribute. -/
  composition : outBytes s = recordsBytes s.trace
  /-- A record begins in OUT where the records before it end. -/
  starts : ∀ (i : Nat) (r : BlockRecord), s.trace[i]? = some r → r.outStart = (recordsBytes (s.trace.take i)).length
  /-- A closed record's decodedBytes are its items' contributions. -/
  slices : ∀ r ∈ s.trace, ∀ c, r.closed = some c →
    c.decodedBytes = itemsBytes r.items ∧ c.outEnd = r.outStart + (itemsBytes r.items).length
  /-- outIndex is the sum of the contributions before the item. -/
  outIndexes : ∀ r ∈ s.trace, ∀ (j : Nat) (it : Item) (k : Nat), r.items[j]? = some it → itemOutIndex it.kind = some k →
    k = r.outStart + (itemsBytes (r.items.take j)).length

/-! ## Runs -/

/-- The state after reset with parameters and host moves of one's choice. -/
def bootState (p : Params) (moves : List HostMove) : State := { State.reset with params := p, host := moves }

/-- A stop that is a capacity stop (70_reset_and_hazards.md R331). -/
def isCapacityStop : Fault → Prop
  | .outFull | .blocksFull | .itemsFull => True
  | .noStep | .noSuchInAddress => False

/-- `k` steps, one after the other. -/
def stepRun : Nat → State → StepResult
  | 0, s => .next s
  | k + 1, s => andThen (step s) (stepRun k)

/-- The result with its next state, if it is one, changed by `f`. -/
def mapNext (f : State → State) : StepResult → StepResult
  | .next s => .next (f s)
  | .fault r => .fault r
  | .refused r => .refused r

/-- Room for `n` more bytes. -/
def outRoom (n : Nat) (s : State) : Prop := ∀ k, k < n → Params.reached s.params.maxOut (s.outLen + k) = false

/-- Room for one more item in the open record. -/
def itemRoom (s : State) : Prop := Params.reached s.params.maxItems (openItems s).length = false

/-- Room for a record with its first item. -/
def recordRoom (s : State) : Prop :=
  Params.reached s.params.maxBlocks s.blkCount = false ∧ Params.reached s.params.maxItems 0 = false

/-! ## What the statements about single instructions say -/

/-- The byte index of the cursor after alignment (40_bitreader.md R125). -/
def alignedByte (s : State) : Nat := s.curByte + (if s.curBit = 0 then 0 else 1)

/-- The record OpenBlock appends for a block header at the cursor (45_engine.md R265, 43_blocks.md R186). -/
def openedRecord (s : State) (kind : BlockKind) (final : Bool) : BlockRecord where
  index := s.blkCount
  kind := kind
  final := some final
  startBit := bitOffset s
  outStart := s.outLen
  storedLen := none
  storedNLen := none
  items := []
  isPartial := false
  closed := none

/-- The record of a pseudo-block over the bits `a` to `b`, no output byte belonging to it
(42_zlib_envelope.md R171, R178). -/
def pseudoRecord (index : Nat) (kind : BlockKind) (item : ItemKind) (a b outLen : Nat) : BlockRecord where
  index := index
  kind := kind
  final := none
  startBit := a
  outStart := outLen
  storedLen := none
  storedNLen := none
  items := [{ kind := item, bitStart := a, bitEnd := b, blockIndex := index, itemIndex := 0 }]
  isPartial := false
  closed := some
    { endBit := b, byteStart := a / 8, byteEnd := (b + 7) / 8, sizeBytes := (b + 7) / 8 - a / 8, outEnd := outLen,
      decodedBytes := [] }

/-- TRACE with an item added to the open record, `TRACE[BLK_COUNT-1]` (45_engine.md R266). -/
def traceWithItem (s : State) (kind : ItemKind) (bitStart bitEnd : Nat) : List BlockRecord :=
  s.trace.modify (s.blkCount - 1) fun r =>
    { r with
      items := r.items ++
        [{ kind := kind, bitStart := bitStart, bitEnd := bitEnd, blockIndex := r.index, itemIndex := r.items.length }] }

/-- The block header rows. -/
def isBhdr : Instr → Bool
  | .bhdrStored _ | .bhdrFixed _ | .bhdrDynamic _ | .bhdrReserved _ => true
  | _ => false

/-- The code-length entry rows. -/
def isClEntry : Instr → Bool
  | .clLen _ _ | .cl16 _ _ | .cl17 _ _ | .cl18 _ _ => true
  | _ => false

/-- The rows that begin on a byte boundary, behind a pad (30_encoding.md R92). -/
def isByteAligned : Instr → Bool
  | .zhdr _ _ | .sthdr _ _ | .stbyte _ | .ztrl _ => true
  | _ => false

/-- The rows that append bytes to OUT. -/
def appendsBytes : Instr → Bool
  | .stbyte _ => true
  | i => (litPart? i).isSome || (lenPart? i).isSome || (distPart? i).isSome

/-- The distance table of a length row: DIST_TAB for MATCH_DYN, the fixed table for any other (44_symbols.md R230). -/
def distTableOf (i : Instr) (s : State) : HuffTable :=
  match i with
  | .matchDyn _ _ _ => s.distTab
  | _ => fixDist

/-- The tables of a context are tables Build answers for length arrays of the context's alphabet (41_huffman.md R140). -/
def tablesBuilt : Ctx → Prop
  | .clEntry t _ => ∃ cl : List (BitVec 3), cl.length = 19 ∧ build (cl.map BitVec.toNat) = some t
  | .symDyn t => ∃ l : List (BitVec 4), l.length ≤ 288 ∧ build (l.map BitVec.toNat) = some t
  | .distDyn t _ => ∃ l : List (BitVec 4), l.length ≤ 32 ∧ build (l.map BitVec.toNat) = some t
  | .zhdr _ | .bhdr | .sthdr _ | .stbyte _ | .dynhdr | .symFixed | .distFixed _ | .ztrl _ => True

/-- The context expects its element at the cursor itself, with no pad, and after a well-formed length half. -/
def atCursor : Ctx → Prop
  | .zhdr pad | .sthdr pad | .stbyte pad | .ztrl pad => pad = 0
  | .distFixed m | .distDyn _ m => m.ok = true
  | .bhdr | .dynhdr | .clEntry _ _ | .symFixed | .symDyn _ => True

end Sys2Proof.Machine
end

