-- ==== Sys2Proof/Certificates/Slice0/Obligations.lean ====
section
/-! DEFINITION. The statements for the provers. Hypotheses are on the state and the operands alone; "room" is that no
capacity is reached (70_reset_and_hazards.md R331), which the reference reading of the parameters always gives. -/

open Sys2Proof Sys2Proof.Machine

/-! ## Reset and the host (10_state.md, 45_engine.md R262, R275, 70_reset_and_hazards.md R320) -/

/-- R54: every register to which the spec gives a reset value holds it, CLL is all 0, the tables, OUT and TRACE are
empty, and a reset does not change the contents of IN. LENS (log 5), the parameters (log 2) and the waiting moves (log 1)
are the model's choice and are not part of this. -/
def Obligations.ResetHoldsTheSpecsValues : Prop :=
  let s := State.reset
  s.st = .idle ∧ s.curByte = 0 ∧ s.curBit = 0 ∧ s.inLen = 0 ∧ s.bfinal = false ∧ s.btype = 0 ∧ s.tsel = .fixed ∧
    s.hlit = 0 ∧ s.hdist = 0 ∧ s.hclen = 0 ∧ s.lcnt = 0 ∧ s.slen = 0 ∧ s.snlen = 0 ∧ s.srem = 0 ∧ s.outLen = 0 ∧
    s.blkCount = 0 ∧ s.blkOpen = false ∧ s.blkStart = 0 ∧ s.blkOutStart = 0 ∧ s.zcmf = 0 ∧ s.zflg = 0 ∧ s.adler = 0 ∧
    s.hdrValid = false ∧ s.trlValid = false ∧ s.errCode = .none ∧ s.errPos = 0 ∧ s.errBlk = 0 ∧
    s.cll = List.replicate 19 0 ∧ s.clTab = [] ∧ s.litTab = [] ∧ s.distTab = [] ∧ s.out = [] ∧ s.trace = [] ∧
    ∀ r : State, (hostReset r).inMem = r.inMem

/-- R262, R263: START (CTRL bit 0, with bit 1 clear) in IDLE, DONE or ERROR writes every register START lists, empties OUT, TRACE and the tables, and
goes to ZHDR, or to DONE for an empty input; in BUSY it is ignored. IN and IN_LEN stay as
they are, as the rule says. That LENS stays is the model's choice (log 5, DESIGN CHOICE), and so is that the parameters and
the later moves do (logs 2, 1). -/
def Obligations.StartBeginsAFreshDecode : Prop :=
  ∀ (s : State) (v : Nat) (ms : List HostMove), s.params.ok = true → s.host = .writeReg 0x0 v :: ms →
    v.testBit 0 = true → v.testBit 1 = false →
    (busy s = true → step s = .next { s with host := ms }) ∧
    (busy s = false → step s = .next { s with
      curByte := 0, curBit := 0, bfinal := false, btype := 0, tsel := .fixed, hlit := 0, hdist := 0, hclen := 0,
      lcnt := 0, slen := 0, snlen := 0, srem := 0, outLen := 0, out := [], blkCount := 0, blkOpen := false,
      blkStart := 0, blkOutStart := 0, trace := [], zcmf := 0, zflg := 0, adler := 0, hdrValid := false,
      trlValid := false, errCode := .none, errPos := 0, errBlk := 0, cll := List.replicate 19 0, clTab := [],
      litTab := [], distTab := [], st := if s.inLen = 0 then .done else .zhdr, host := ms })

/-- R29, R320, R321: a CTRL write with bit 1 set resets in every state, BUSY included, whatever bit 0 is: every field takes
its value after reset, but for the contents of IN. The parameters and the moves still waiting stay. -/
def Obligations.ResetMoveRestoresTheResetState : Prop :=
  ∀ (s : State) (v : Nat) (ms : List HostMove), s.params.ok = true → s.host = .writeReg 0x0 v :: ms →
    v.testBit 1 = true → step s = .next { State.reset with inMem := s.inMem, params := s.params, host := ms }

/-- R28, R29, R30, R31: the register writes that are ignored: to a read-only or reserved index; of CTRL with bits 0 and 1
clear; and, while the core is BUSY, of CTRL without bit 1 and of IN_LEN. -/
def Obligations.IgnoredRegisterWrites : Prop :=
  ∀ (s : State) (i v : Nat) (ms : List HostMove), s.host = .writeReg i v :: ms →
    (i ≠ 0x0 ∧ i ≠ 0x2) ∨ (i = 0x0 ∧ v.testBit 0 = false ∧ v.testBit 1 = false) ∨
      (busy s = true ∧ i = 0x0 ∧ v.testBit 1 = false) ∨ (busy s = true ∧ i = 0x2) →
    step s = .next { s with host := ms }

/-- R31: outside BUSY a write of IN_LEN sets it, unless the value is above P_MAX_IN; then the old value stays. -/
def Obligations.InLenWriteIsWriteAnyReadLegal : Prop :=
  ∀ (s : State) (v : Nat) (ms : List HostMove), s.host = .writeReg 0x2 v :: ms → busy s = false →
    (Params.within s.params.maxIn (regValue s v) = true →
      step s = .next { s with inLen := regValue s v, host := ms }) ∧
    (Params.within s.params.maxIn (regValue s v) = false → step s = .next { s with host := ms })

/-- R28, R32, R33, R172, R290: the numbers of the errors, what each register shows outside BUSY, that reserved indices and
CTRL read 0, that ERR, ERR_POS and ERR_BLK read 0 outside ERROR, and where the fields of the ZHDR word lie. -/
def Obligations.HostRegistersShowTheirContents : Prop :=
  (errorNumber .none = 0 ∧ errorNumber .unexpectedEndOfData = 1 ∧ errorNumber .invalidBlockType = 2 ∧
    errorNumber .invalidStoredBlock = 3 ∧ errorNumber .invalidCodeLengths = 4 ∧
    errorNumber .incompleteCodeLengths = 5 ∧ errorNumber .invalidHuffmanCode = 6 ∧
    errorNumber .invalidBackReference = 7) ∧
  ∀ s : State, busy s = false →
    (Inv s → s.st ≠ .error →
      hostReadReg s 0x3 = some 0 ∧ hostReadReg s 0x4 = some 0 ∧ hostReadReg s 0x5 = some 0) ∧
    hostReadReg s 0x0 = some 0 ∧
    hostReadReg s 0x2 = some (regValue s s.inLen) ∧
    hostReadReg s 0x3 = some (regValue s (errorNumber s.errCode)) ∧
    hostReadReg s 0x4 = some (regValue s s.errPos) ∧
    hostReadReg s 0x5 = some (regValue s s.errBlk) ∧
    hostReadReg s 0x6 = some (regValue s s.outLen) ∧
    hostReadReg s 0x7 = some (if s.hdrValid then (zhdrWord s.zcmf s.zflg).toNat else 0) ∧
    hostReadReg s 0x8 = some (if s.trlValid then s.adler.toNat else 0) ∧
    hostReadReg s 0x9 = some (regValue s s.blkCount) ∧
    hostReadReg s 0xA = some (regValue s (8 * s.curByte + s.curBit.toNat)) ∧
    hostReadReg s 0xB = some (regValue s
      (s.hdrValid.toNat + 2 * s.trlValid.toNat + 4 * ((s.trace.getLast?).any BlockRecord.isPartial).toNat)) ∧
    (∀ i, 0xC ≤ i → hostReadReg s i = some 0) ∧
    let w := (zhdrWord s.zcmf s.zflg).toNat
    w % 2 ^ 8 = s.zcmf.toNat ∧ w / 2 ^ 8 % 2 ^ 8 = s.zflg.toNat ∧ w / 2 ^ 16 % 2 ^ 4 = s.zcmf.toNat % 16 ∧
    w / 2 ^ 20 % 2 ^ 4 = s.zcmf.toNat / 16 ∧ w / 2 ^ 24 % 2 ^ 5 = s.zflg.toNat % 32 ∧
    w / 2 ^ 29 % 2 = s.zflg.toNat / 32 % 2 ∧ w / 2 ^ 30 = s.zflg.toNat / 64

/-- R28, R30, R21: the 13 codes of ST; STATUS can be read in every state; its word has the state code in bits 1:0 and ST in bits 7:4, 1..10
exactly while STATE is BUSY. The value read is that word as P_REG_W bits carry it (R28; the cut to P_REG_W bits is
log 12, DEDUCED), so bits 7:4 are lost where P_REG_W < 8. -/
def Obligations.StatusShowsStateAndSt : Prop :=
  (stCode .idle = 0 ∧ stCode .zhdr = 1 ∧ stCode .bhdr = 2 ∧ stCode .storedHdr = 3 ∧ stCode .storedData = 4 ∧
    stCode .dynHdr = 5 ∧ stCode .dynLens = 6 ∧ stCode .dynTables = 7 ∧ stCode .symbol = 8 ∧ stCode .blockEnd = 9 ∧
    stCode .ztrl = 10 ∧ stCode .done = 11 ∧ stCode .error = 12) ∧
  ∀ s : State,
    hostReadReg s 0x1 = some (regValue s (statusWord s)) ∧
    statusWord s % 4 = (match s.st with | .idle => 0 | .done => 2 | .error => 3 | _ => 1) ∧
    statusWord s / 16 % 16 = stCode s.st ∧ stCode s.st ≤ 12 ∧
    (busy s = true ↔ 1 ≤ stCode s.st ∧ stCode s.st ≤ 10)

/-- R80, R275: while BUSY the host reads STATUS and nothing else; outside BUSY it reads OUT below OUT_LEN and every
record. -/
def Obligations.HostReadsResultsOnlyOutsideBusy : Prop :=
  ∀ (s : State) (i : Nat),
    (busy s = true → (i ≠ 0x1 → hostReadReg s i = none) ∧ hostReadOut s i = none ∧ hostReadRecord s i = none) ∧
    (busy s = false →
      (i < s.outLen → hostReadOut s i = some (outRead s i)) ∧
      (s.trace.length = s.blkCount → i < s.blkCount → hostReadRecord s i = s.trace[i]?))

/-- R275: outside BUSY the host writes a byte of IN, and no other byte of IN and no other field changes. While BUSY it
has no such move, which the model answers with a refusal (log 14), and an address IN does not have faults (log 13). -/
def Obligations.HostWritesOneByteOfIn : Prop :=
  ∀ (s : State) (a : Nat) (b : Byte) (ms : List HostMove), s.inMem.wf → s.host = .writeIn a b :: ms →
    (busy s = true → step s = .refused .hostWriteWhileBusy) ∧
    (busy s = false → Params.reached s.params.maxIn a = true → step s = .fault .noSuchInAddress) ∧
    (busy s = false → Params.reached s.params.maxIn a = false →
      ∃ m : Memory, step s = .next { s with inMem := m, host := ms } ∧ m.wf ∧
        ∀ k, readByteAt m k = if k = a then b else readByteAt s.inMem k)

/-! ## The step (45_engine.md R261) -/

/-- The step runs the element at the cursor: when the bits there decode, in the context ST selects, to an instruction, the
step is that instruction's meaning, which moves the cursor itself. -/
def Obligations.StepRunsTheDecodedElement : Prop :=
  ∀ (s : State) (ctx : Ctx) (i : Instr) (n : Nat), s.host = [] → contextOf s = some ctx →
    decode ctx (stream s) = .elem i n → step s = exec i s

/-- R261, R205, R268: the two steps that consume no bits, and the three states without a step (fault noStep, log 3). -/
def Obligations.StepsThatConsumeNoElement : Prop :=
  ∀ s : State, s.host = [] →
    (s.st = .dynTables → step s = .next (dynTables s)) ∧
    (s.st = .blockEnd → step s = .next (blockEnd s)) ∧
    (s.st = .idle ∨ s.st = .done ∨ s.st = .error → step s = .fault .noStep)

/-- R128, R129, R12: where the data ends inside an element, the step keeps the fields and the bits of the reads before the
failing one and raises UnexpectedEndOfData. -/
def Obligations.TruncatedElementRaisesEndOfData : Prop :=
  ∀ (s : State) (ctx : Ctx) (p : PartialRead) (n : Nat), s.host = [] → contextOf s = some ctx →
    decode ctx (stream s) = .endOfData p n →
    step s = .next (raise .unexpectedEndOfData (keepPartial p (setCursor (bitOffset s + n) s)))

/-- R186, R192, R194, R171, R178, R200, R128, R249, R291: what a truncated element has read and keeps. A byte read that
fails consumes nothing, not even the pad; a stored or block header whose second read fails keeps the first; a dynamic
header keeps every whole field read before the failing one, and CLL is 0 but for the lengths read. A coded
element keeps every bit left where the data ends inside its code, whatever the table, and its code's bits alone where they
end inside its extra bits. The last clauses say which registers keep the fields. -/
def Obligations.TruncatedHeadersKeepTheirFirstField : Prop :=
  ∀ (bs : Bits) (pad : Nat),
    (bs.length < pad + 16 → decode (.zhdr pad) bs = .endOfData .nothing 0 ∧
      decode (.sthdr pad) bs = .endOfData .nothing 0) ∧
    (bs.length < pad + 8 → decode (.stbyte pad) bs = .endOfData .nothing 0) ∧
    (bs.length < pad + 32 → decode (.ztrl pad) bs = .endOfData .nothing 0) ∧
    (pad + 16 ≤ bs.length → bs.length < pad + 32 →
      ∃ len, decode (.sthdr pad) bs = .endOfData (.slen len) (pad + 16) ∧
        ∀ j : Nat, j < 16 → len.getLsbD j = bs.getD (pad + j) false) ∧
    (bs = [] → decode .bhdr bs = .endOfData .nothing 0) ∧
    (1 ≤ bs.length → bs.length < 3 → decode .bhdr bs = .endOfData (.bfinal (bs.getD 0 false)) 1) ∧
    (bs.length < 5 → decode .dynhdr bs = .endOfData .nothing 0) ∧
    (5 ≤ bs.length → bs.length < 10 →
      ∃ h, decode .dynhdr bs = .endOfData (.hlit h) 5 ∧ ∀ j : Nat, j < 5 → h.getLsbD j = bs.getD j false) ∧
    (10 ≤ bs.length → bs.length < 14 →
      ∃ h d, decode .dynhdr bs = .endOfData (.hlitHdist h d) 10 ∧
        ∀ j : Nat, j < 5 → h.getLsbD j = bs.getD j false ∧ d.getLsbD j = bs.getD (5 + j) false) ∧
    (∀ (h d : BitVec 5) (c : BitVec 4), 14 ≤ bs.length →
      (∀ j : Nat, j < 5 → h.getLsbD j = bs.getD j false ∧ d.getLsbD j = bs.getD (5 + j) false) →
      (∀ j : Nat, j < 4 → c.getLsbD j = bs.getD (10 + j) false) → bs.length < 14 + 3 * (c.toNat + 4) →
      ∃ cl, decode .dynhdr bs = .endOfData (.clls h d c cl) (14 + 3 * cl.length) ∧ cl.length = (bs.length - 14) / 3 ∧
        ∀ k j : Nat, k < cl.length → j < 3 → (cl.getD k 0).getLsbD j = bs.getD (14 + 3 * k + j) false) ∧
    (∀ (t : HuffTable) (extraOf : Nat → Nat),
      ((∀ e ∈ t, ¬ (List.range e.len).map (fun j => e.code.testBit (e.len - 1 - j)) <+: bs) → bs.length < 15 →
        readCoded t extraOf bs = .endOfData bs.length) ∧
      ∀ sym n rest, decodeSymbol t bs = .found sym n rest → rest.length < extraOf sym →
        readCoded t extraOf bs = .endOfData n) ∧
    (∀ (t : HuffTable) (n : Nat),
      (∀ p, readCoded t (clExtra p) bs = .endOfData n → decode (.clEntry t p) bs = .endOfData .nothing n) ∧
      (readCoded t lenExtra bs = .endOfData n → decode (.symDyn t) bs = .endOfData .nothing n) ∧
      (readCoded fixLit lenExtra bs = .endOfData n → decode .symFixed bs = .endOfData .nothing n) ∧
      ∀ m, (readCoded t distExtra bs = .endOfData n → decode (.distDyn t m) bs = .endOfData .nothing n) ∧
        (readCoded fixDist distExtra bs = .endOfData n → decode (.distFixed m) bs = .endOfData .nothing n)) ∧
    ∀ s : State,
      keepPartial .nothing s = s ∧
      (∀ f, keepPartial (.bfinal f) s = { s with bfinal := f }) ∧
      (∀ v, keepPartial (.slen v) s = { s with slen := v }) ∧
      (∀ h, keepPartial (.hlit h) s = { s with hlit := BitVec.ofNat 9 (h.toNat + 257) }) ∧
      (∀ h d, keepPartial (.hlitHdist h d) s =
        { s with hlit := BitVec.ofNat 9 (h.toNat + 257), hdist := BitVec.ofNat 6 (d.toNat + 1) }) ∧
      ∀ h d c cl, keepPartial (.clls h d c cl) s = { s with
        hlit := BitVec.ofNat 9 (h.toNat + 257), hdist := BitVec.ofNat 6 (d.toNat + 1)
        hclen := BitVec.ofNat 5 (c.toNat + 4), cll := cllOf cl }

/-- R25: the core moves the cursor only forward, and never past the end of the input. -/
def Obligations.CursorMovesForwardWithinTheInput : Prop :=
  ∀ s t : State, coreStep s = .next t →
    bitOffset s ≤ bitOffset t ∧ (bitOffset s ≤ 8 * s.inLen → bitOffset t ≤ 8 * t.inLen)

/-- R92, R125: an element other than a MATCH moves the cursor by the bits it was decoded from: its size (elementBits),
behind the pad to the byte boundary for ZHDR, STHDR, STBYTE and ZTRL, which ReadBytes reads, and with no pad for every
other row. (For ZHDR and STBYTE R92 lists no pad, since the cursor stands on a boundary there in every run.) The one
exception is a CL_16 with no previous length, which raises behind its code (R203, log 9). -/
def Obligations.ElementAdvancesByItsSize : Prop :=
  ∀ (s t : State) (ctx : Ctx) (i : Instr) (n : Nat), contextOf s = some ctx → decode ctx (stream s) = .elem i n →
    lenPart? i = none → exec i s = .next t →
    bitOffset t = bitOffset s + n ∧ n ≤ avail s ∧
      (∀ k e, i = .cl16 k e → s.lcnt = 0 → n = k) ∧
      (¬ (∃ k e, i = .cl16 k e ∧ s.lcnt = 0) → n = (if isByteAligned i then padLen s else 0) + elementBits i)

/-- R76: no bit at or above 8*IN_LEN is read: two inputs that agree below IN_LEN take the same step. -/
def Obligations.StepDoesNotDependOnBytesPastTheEnd : Prop :=
  ∀ (s : State) (m : Memory), (∀ a, a < s.inLen → readByteAt m a = readByteAt s.inMem a) →
    coreStep { s with inMem := m } = mapNext (fun t => { t with inMem := m }) (coreStep s)

/-! ## The instructions: what each does, for every form (completion, result and what stays as it was) -/

/-- R171 to R175: ZHDR. No header field is checked, and nothing but the fields named here changes. -/
def Obligations.ZhdrRecordsTheHeader : Prop :=
  ∀ (cmf flg : Byte) (s : State), recordRoom s →
    exec (.zhdr cmf flg) s = .next { s with
      curByte := alignedByte s + 2, curBit := 0, zcmf := cmf, zflg := flg, hdrValid := true, blkCount := 1
      st := .bhdr
      trace := s.trace ++
        [pseudoRecord 0 .zlibHeader
          (.zlibHeader cmf flg (cmf.extractLsb' 0 4) (cmf.extractLsb' 4 4) (flg.extractLsb' 0 5) (flg.extractLsb' 5 1)
            (flg.extractLsb' 6 2)) (bitOffset s) (bitOffset s + 16) s.outLen] }

/-- R186, R188, R189, R265: BHDR_STORED, BHDR_FIXED and BHDR_DYNAMIC open a block record of their kind. -/
def Obligations.BhdrOpensABlock : Prop :=
  ∀ (f : Bool) (s : State), Params.reached s.params.maxBlocks s.blkCount = false →
    let s1 := { setCursor (bitOffset s + 3) s with
      bfinal := f, blkStart := bitOffset s, blkOutStart := s.outLen, blkOpen := true, blkCount := s.blkCount + 1 }
    exec (.bhdrStored f) s = .next { s1 with
      btype := 0, trace := s.trace ++ [openedRecord s .stored f], st := .storedHdr } ∧
    exec (.bhdrFixed f) s = .next { s1 with
      btype := 1, trace := s.trace ++ [openedRecord s .fixedHuffman f], tsel := .fixed, st := .symbol } ∧
    exec (.bhdrDynamic f) s = .next { s1 with
      btype := 2, trace := s.trace ++ [openedRecord s .dynamicHuffman f], st := .dynHdr }

/-- R187: BHDR_RESERVED takes the error entry with InvalidBlockType behind its 3 bits; no record is opened. That BTYPE
keeps the value 3 is the model's reading (log 10). -/
def Obligations.BhdrReservedRaisesInvalidBlockType : Prop :=
  ∀ (f : Bool) (s : State), ∃ t,
    exec (.bhdrReserved f) s = .next t ∧
    t = raise .invalidBlockType { setCursor (bitOffset s + 3) s with bfinal := f, btype := 3 } ∧
    t.st = .error ∧ t.errCode = .invalidBlockType ∧ t.errPos = bitOffset s + 3 ∧ bitOffset t = bitOffset s + 3 ∧
    t.out = s.out ∧ t.outLen = s.outLen ∧ t.blkCount = s.blkCount ∧
    (s.blkOpen = false → t.errBlk = s.blkCount ∧ t.trace = s.trace)

/-- R192, R193, R195: STHDR records LEN and NLEN; with NLEN the complement of LEN the copy begins, or the block ends for
LEN = 0; otherwise InvalidStoredBlock is raised behind NLEN. -/
def Obligations.SthdrChecksTheComplement : Prop :=
  ∀ (len nlen : BitVec 16) (s : State),
    let s1 := { s with
      curByte := alignedByte s + 4, curBit := 0, slen := len, snlen := nlen
      trace := s.trace.modify (s.blkCount - 1) fun r => { r with storedLen := some len, storedNLen := some nlen } }
    (len ^^^ nlen = 0xFFFF#16 →
      exec (.sthdr len nlen) s = .next { s1 with srem := len, st := if len = 0 then .blockEnd else .storedData }) ∧
    (len ^^^ nlen ≠ 0xFFFF#16 → exec (.sthdr len nlen) s = .next (raise .invalidStoredBlock s1))

/-- R194: STBYTE appends one byte and one Literal item, and SREM counts down to BLOCK_END. -/
def Obligations.StbyteCopiesOneByte : Prop :=
  ∀ (b : Byte) (s : State), outRoom 1 s → itemRoom s →
    exec (.stbyte b) s = .next { s with
      curByte := alignedByte s + 1, curBit := 0, outLen := s.outLen + 1, out := writeByteAt s.out s.outLen b
      trace := traceWithItem s (.literal b s.outLen) (bitOffset s) (8 * alignedByte s + 8)
      srem := s.srem - 1, st := if s.srem - 1 = 0 then .blockEnd else s.st }

/-- R200, R201, R153: DYNHDR writes the counts and CLL, emits the DynamicHeader item, and builds CL_TAB; where it cannot be
built InvalidCodeLengths is raised and the item stays. -/
def Obligations.DynhdrBuildsTheCodeLengthTable : Prop :=
  ∀ (h d : BitVec 5) (c : BitVec 4) (cl : List (BitVec 3)) (s : State), itemRoom s →
    let s1 := { setCursor (bitOffset s + (14 + 3 * cl.length)) s with
      hlit := BitVec.ofNat 9 (h.toNat + 257), hdist := BitVec.ofNat 6 (d.toNat + 1)
      hclen := BitVec.ofNat 5 (c.toNat + 4), cll := cllOf cl
      trace := traceWithItem s (.dynamicHeader (h.toNat + 257) (d.toNat + 1) (c.toNat + 4) (cllOf cl)) (bitOffset s)
        (bitOffset s + (14 + 3 * cl.length)) }
    (∀ t, build ((cllOf cl).map BitVec.toNat) = some t →
      exec (.dynhdr h d c cl) s = .next { s1 with clTab := t, lcnt := 0, st := .dynLens }) ∧
    (build ((cllOf cl).map BitVec.toNat) = none →
      exec (.dynhdr h d c cl) s = .next (raise .invalidCodeLengths s1))

/-- R34, R200: the lengths of a dynamic header go to CLL[ORDER[i]], and every other entry is 0. -/
def Obligations.ClLengthsGoToTheirOrder : Prop :=
  ∀ cl : List (BitVec 3), cl.length ≤ 19 →
    let ord := [16, 17, 18, 0, 8, 7, 9, 6, 10, 5, 11, 4, 12, 3, 13, 2, 14, 1, 15]
    (cllOf cl).length = 19 ∧
    ∀ i, i < 19 → (cllOf cl)[ord.getD i 0]? = some (cl.getD i 0)

/-- R202: CL_LEN writes one length, its item, and goes to DYN_TABLES when it is the last. -/
def Obligations.ClLenWritesOneLength : Prop :=
  ∀ (n : Nat) (v : BitVec 4) (s : State), countsInRange s → s.lcnt.toNat < s.hlit.toNat + s.hdist.toNat → itemRoom s →
    exec (.clLen n v) s = .next { setCursor (bitOffset s + n) s with
      lens := s.lens.set s.lcnt.toNat v, lcnt := s.lcnt + 1
      trace := traceWithItem s (.dynamicCodeLengthEntry v.toNat none 1 v.toNat s.lcnt.toNat) (bitOffset s)
        (bitOffset s + n)
      st := if s.lcnt.toNat + 1 = s.hlit.toNat + s.hdist.toNat then .dynTables else s.st }

/-- R203, R204, R207: CL_16, CL_17 and CL_18 write a run of lengths, their item, and go to DYN_TABLES when the run ends
exactly at HLIT + HDIST. CL_16 repeats the length before it, whichever slice that lies in. -/
def Obligations.ClRepeatWritesARun : Prop :=
  ∀ (i : Instr) (sym extra r bits : Nat) (v : BitVec 4) (s : State), countsInRange s →
    ((∃ n e, i = .cl16 n e ∧ sym = 16 ∧ extra = e.toNat ∧ r = 3 + e.toNat ∧ bits = n + 2 ∧ s.lcnt ≠ 0 ∧
        s.lens[s.lcnt.toNat - 1]? = some v) ∨
      (∃ n e, i = .cl17 n e ∧ sym = 17 ∧ extra = e.toNat ∧ r = 3 + e.toNat ∧ bits = n + 3 ∧ v = 0) ∨
      (∃ n e, i = .cl18 n e ∧ sym = 18 ∧ extra = e.toNat ∧ r = 11 + e.toNat ∧ bits = n + 7 ∧ v = 0)) →
    s.lcnt.toNat + r ≤ s.hlit.toNat + s.hdist.toNat → itemRoom s →
    ∃ l, exec i s = .next { setCursor (bitOffset s + bits) s with
        lens := l, lcnt := BitVec.ofNat 9 (s.lcnt.toNat + r)
        trace := traceWithItem s (.dynamicCodeLengthEntry sym (some extra) r v.toNat s.lcnt.toNat) (bitOffset s)
          (bitOffset s + bits)
        st := if s.lcnt.toNat + r = s.hlit.toNat + s.hdist.toNat then .dynTables else s.st } ∧
      l.length = s.lens.length ∧
      ∀ j, j < s.lens.length →
        l[j]? = if s.lcnt.toNat ≤ j ∧ j < s.lcnt.toNat + r then some v else s.lens[j]?

/-- R203, R204: a CL_16 with no length before it raises InvalidCodeLengths behind its code, and a repeat past
HLIT + HDIST raises it behind the extra bits; LENS, LCNT and the items stay as they were. -/
def Obligations.ClRepeatErrors : Prop :=
  ∀ (n : Nat) (s : State),
    (∀ e : BitVec 2, s.lcnt = 0 →
      exec (.cl16 n e) s = .next (raise .invalidCodeLengths (setCursor (bitOffset s + n) s))) ∧
    (∀ e : BitVec 2, s.lcnt ≠ 0 → s.hlit.toNat + s.hdist.toNat < s.lcnt.toNat + (3 + e.toNat) →
      exec (.cl16 n e) s = .next (raise .invalidCodeLengths (setCursor (bitOffset s + (n + 2)) s))) ∧
    (∀ e : BitVec 3, s.hlit.toNat + s.hdist.toNat < s.lcnt.toNat + (3 + e.toNat) →
      exec (.cl17 n e) s = .next (raise .invalidCodeLengths (setCursor (bitOffset s + (n + 3)) s))) ∧
    (∀ e : BitVec 7, s.hlit.toNat + s.hdist.toNat < s.lcnt.toNat + (11 + e.toNat) →
      exec (.cl18 n e) s = .next (raise .invalidCodeLengths (setCursor (bitOffset s + (n + 7)) s)))

/-- R205, R296: DYN_TABLES and its checks in their order. -/
def Obligations.DynTablesChecksInOrder : Prop :=
  ∀ s : State,
    let ll := (s.lens.take s.hlit.toNat).map BitVec.toNat
    let dl := ((s.lens.drop s.hlit.toNat).take s.hdist.toNat).map BitVec.toNat
    (s.lcnt.toNat < s.hlit.toNat + s.hdist.toNat → dynTables s = raise .incompleteCodeLengths s) ∧
    (¬ s.lcnt.toNat < s.hlit.toNat + s.hdist.toNat →
      ((∀ l ∈ ll, l = 0) ∨ (∀ l ∈ dl, l = 0) → dynTables s = raise .incompleteCodeLengths s) ∧
      ((∃ l ∈ ll, l ≠ 0) → (∃ l ∈ dl, l ≠ 0) →
        (build ll = none → dynTables s = raise .invalidCodeLengths s) ∧
        (∀ lt, build ll = some lt →
          (build dl = none → dynTables s = raise .invalidCodeLengths { s with litTab := lt }) ∧
          (∀ dt, build dl = some dt →
            dynTables s = { s with litTab := lt, distTab := dt, tsel := .dyn, st := .symbol }))))

/-- R231: the literal rows LIT8A, LIT8B, LIT8C, LIT9A, LIT9B, LIT9C and LIT_DYN append their byte and emit a Literal item
over their code bits. -/
def Obligations.LiteralAppendsItsByte : Prop :=
  ∀ (i : Instr) (n : Nat) (b : Byte) (s : State), litPart? i = some (n, b) → outRoom 1 s → itemRoom s →
    exec i s = .next { setCursor (bitOffset s + n) s with
      outLen := s.outLen + 1, out := writeByteAt s.out s.outLen b
      trace := traceWithItem s (.literal b s.outLen) (bitOffset s) (bitOffset s + n) }

/-- R232: EOB and EOB_DYN emit an EndOfBlock item over their code bits and go to BLOCK_END. -/
def Obligations.EobEndsTheBlock : Prop :=
  ∀ (n : Nat) (s : State), itemRoom s →
    exec .eob s = .next { setCursor (bitOffset s + 7) s with
      trace := traceWithItem s .endOfBlock (bitOffset s) (bitOffset s + 7), st := .blockEnd } ∧
    exec (.eobDyn n) s = .next { setCursor (bitOffset s + n) s with
      trace := traceWithItem s .endOfBlock (bitOffset s) (bitOffset s + n), st := .blockEnd }

/-- R240, R241: the symbols without a meaning. BAD_LIT_286, BAD_LIT_287, BAD_LIT_DYN, BAD_DIST_30, BAD_DIST_31 and
BAD_DIST_DYN take the error entry with InvalidHuffmanCode behind their code, and no extra bit is read. -/
def Obligations.UnusableSymbolsRaiseInvalidHuffmanCode : Prop :=
  ∀ (i : Instr) (n : Nat) (s : State),
    (i = .badLit286 ∧ n = 8) ∨ (i = .badLit287 ∧ n = 8) ∨ (∃ sym, i = .badLitDyn n sym) ∨
      (∃ m, i = .badDist30 m ∧ n = 5) ∨ (∃ m, i = .badDist31 m ∧ n = 5) ∨ (∃ m sym, i = .badDistDyn m n sym) →
    ∃ t, exec i s = .next t ∧ t = raise .invalidHuffmanCode (setCursor (bitOffset s + n) s) ∧
      t.st = .error ∧ t.errCode = .invalidHuffmanCode ∧ t.errPos = bitOffset s + n ∧ bitOffset t = bitOffset s + n ∧
      t.out = s.out ∧ t.outLen = s.outLen ∧ (s.blkOpen = false → t.trace = s.trace)

/-- R236, R237, R238, R244, R245, R247: the tables of R237 and R238, written out, and the distance rows DIST_0 to DIST_29
and DIST_DYN, whose length half is an operand (log 6): with the distance inside the output, the length's bytes are appended
and one BackReference item is emitted over both halves. -/
def Obligations.DistanceCopiesFromTheOutput : Prop :=
  ((List.range 29).map (fun k => lenBase (257 + k)) =
      [3, 4, 5, 6, 7, 8, 9, 10, 11, 13, 15, 17, 19, 23, 27, 31, 35, 43, 51, 59, 67, 83, 99, 115, 131, 163, 195, 227, 258] ∧
    (List.range 29).map (fun k => lenExtra (257 + k)) =
      [0, 0, 0, 0, 0, 0, 0, 0, 1, 1, 1, 1, 2, 2, 2, 2, 3, 3, 3, 3, 4, 4, 4, 4, 5, 5, 5, 5, 0] ∧
    (List.range 30).map distBase =
      [1, 2, 3, 4, 5, 7, 9, 13, 17, 25, 33, 49, 65, 97, 129, 193, 257, 385, 513, 769, 1025, 1537, 2049, 3073, 4097, 6145,
        8193, 12289, 16385, 24577] ∧
    (List.range 30).map distExtra =
      [0, 0, 0, 0, 1, 1, 2, 2, 3, 3, 4, 4, 5, 5, 6, 6, 7, 7, 8, 8, 9, 9, 10, 10, 11, 11, 12, 12, 13, 13]) ∧
  ∀ (i : Instr) (m : LenPart) (p : DistPart) (s : State), wellFormed i = true → distPart? i = some (m, p) →
    p.sym < 30 →
    let len := lenBase m.sym + m.extra
    let dist := distBase p.sym + p.extra
    let e := bitOffset s + (p.codeBits + distExtra p.sym)
    dist ≤ s.outLen → outRoom len s → itemRoom s →
    exec i s = .next { setCursor e s with
      outLen := s.outLen + len, out := writeBytesAt s.out s.outLen (resolve len dist s)
      trace := traceWithItem s
        (.backReference len dist (resolve len dist s) m.sym m.extra p.sym p.extra s.outLen) (bitOffset s - m.bits) e }

/-- R244, R336: a distance past the output raises InvalidBackReference behind the distance's extra bits, and nothing is
written. -/
def Obligations.DistancePastTheOutputRaises : Prop :=
  ∀ (i : Instr) (m : LenPart) (p : DistPart) (s : State), wellFormed i = true → distPart? i = some (m, p) →
    p.sym < 30 → s.outLen < distBase p.sym + p.extra →
    exec i s = .next
      (raise .invalidBackReference (setCursor (bitOffset s + (p.codeBits + distExtra p.sym)) s))

/-- R236, R237, R248, R92, R98: a length row is decoded from exactly the bits of its length half, which are its size
(elementBits), and the length rows LEN_257 to LEN_285 and MATCH_DYN run the whole MATCH: the distance code and its
extra bits are read behind the length half, and the copy and its one item are made in the same step. The tables behind
lenBase, distBase and distExtra are written out in DistanceCopiesFromTheOutput. -/
def Obligations.LengthRunsTheWholeMatch : Prop :=
  (∀ (ctx : Ctx) (bs : Bits) (i : Instr) (n : Nat) (m : LenPart), decode ctx bs = .elem i n → lenPart? i = some m →
    n = m.bits ∧ n = elementBits i) ∧
  ∀ (i : Instr) (m : LenPart) (d k de : Nat) (s : State), lenPart? i = some m →
    readCoded (distTableOf i s) distExtra (stream (setCursor (bitOffset s + m.bits) s)) = .coded d k de → d < 30 →
    let len := lenBase m.sym + m.extra
    let dist := distBase d + de
    let e := bitOffset s + m.bits + (k + distExtra d)
    dist ≤ s.outLen → outRoom len s → itemRoom s →
    exec i s = .next { setCursor e s with
      outLen := s.outLen + len, out := writeBytesAt s.out s.outLen (resolve len dist s)
      trace := traceWithItem s
        (.backReference len dist (resolve len dist s) m.sym m.extra d de s.outLen) (bitOffset s) e }

/-- R241, R244, R249: how a MATCH fails behind its length half: a distance symbol 30 or 31, a distance past the output, or
the end of the data. The bits read stay consumed, and nothing is written. -/
def Obligations.MatchErrorsKeepTheBitsRead : Prop :=
  ∀ (i : Instr) (m : LenPart) (s : State), lenPart? i = some m →
    let a := bitOffset s + m.bits
    let c := readCoded (distTableOf i s) distExtra (stream (setCursor a s))
    (∀ d k de, c = .coded d k de → 30 ≤ d →
      exec i s = .next (raise .invalidHuffmanCode (setCursor (a + k) s))) ∧
    (∀ d k de, c = .coded d k de → d < 30 → s.outLen < distBase d + de →
      exec i s = .next (raise .invalidBackReference (setCursor (a + (k + distExtra d)) s))) ∧
    (∀ k, c = .endOfData k → exec i s = .next (raise .unexpectedEndOfData (setCursor (a + k) s)))

/-- R178, R179: ZTRL records the Adler-32 word, unchecked, and the decode is done. -/
def Obligations.ZtrlRecordsTheChecksum : Prop :=
  ∀ (a : BitVec 32) (s : State), recordRoom s →
    exec (.ztrl a) s = .next { s with
      curByte := alignedByte s + 4, curBit := 0, adler := a, trlValid := true, blkCount := s.blkCount + 1, st := .done
      trace := s.trace ++
        [pseudoRecord s.blkCount .zlibTrailer (.zlibChecksum a) (8 * alignedByte s) (8 * alignedByte s + 32) s.outLen] }

/-- R268, R281: BLOCK_END closes the open record at the cursor and goes to ZTRL after the last block, to BHDR after any
other. -/
def Obligations.BlockEndClosesTheRecord : Prop :=
  ∀ s : State,
    blockEnd s = { s with
      blkOpen := false, st := if s.bfinal = true then .ztrl else .bhdr
      trace := s.trace.modify (s.blkCount - 1) fun r =>
        { r with
          closed := some
            { endBit := bitOffset s, byteStart := r.startBit / 8, byteEnd := (bitOffset s + 7) / 8
              sizeBytes := (bitOffset s + 7) / 8 - r.startBit / 8, outEnd := s.outLen
              decodedBytes := readBytesAt s.out r.outStart (s.outLen - r.outStart) } } }

/-- R300: the error entry. ERR_CODE, ERR_POS and ERR_BLK are saved, an open record is closed as partial, BLK_OPEN is
cleared, ST is ERROR, and nothing else changes. -/
def Obligations.RaiseIsTheErrorEntry : Prop :=
  ∀ (e : ErrorCode) (s : State),
    raise e s = { s with
      st := .error, errCode := e, errPos := bitOffset s, blkOpen := false
      errBlk := if s.blkOpen = true then s.blkCount - 1 else s.blkCount
      trace :=
        if s.blkOpen = true then
          s.trace.modify (s.blkCount - 1) fun r =>
            { r with
              isPartial := true
              closed := some
                { endBit := bitOffset s, byteStart := r.startBit / 8, byteEnd := (bitOffset s + 7) / 8
                  sizeBytes := (bitOffset s + 7) / 8 - r.startBit / 8, outEnd := s.outLen
                  decodedBytes := readBytesAt s.out r.outStart (s.outLen - r.outStart) } }
        else s.trace }

/-! ## Frames -/

/-- R85, R22, R27: what an instruction leaves unchanged. IN, IN_LEN, the parameters and the waiting moves stay; each
register changes only in the rows whose rule writes it; the error registers change only in the error entry. -/
def Obligations.RegistersChangeOnlyInTheirRows : Prop :=
  ∀ (i : Instr) (s t : State), exec i s = .next t →
    t.inMem = s.inMem ∧ t.inLen = s.inLen ∧ t.params = s.params ∧ t.host = s.host ∧
    t.litTab = s.litTab ∧ t.distTab = s.distTab ∧
    (isBhdr i = false → t.bfinal = s.bfinal ∧ t.btype = s.btype ∧ t.blkStart = s.blkStart ∧
      t.blkOutStart = s.blkOutStart) ∧
    ((∀ f, i ≠ .bhdrFixed f) → t.tsel = s.tsel) ∧
    ((∀ c f, i ≠ .zhdr c f) → t.zcmf = s.zcmf ∧ t.zflg = s.zflg ∧ t.hdrValid = s.hdrValid) ∧
    ((∀ a, i ≠ .ztrl a) → t.adler = s.adler ∧ t.trlValid = s.trlValid) ∧
    ((∀ l n, i ≠ .sthdr l n) → t.slen = s.slen ∧ t.snlen = s.snlen) ∧
    ((∀ l n, i ≠ .sthdr l n) → (∀ b, i ≠ .stbyte b) → t.srem = s.srem) ∧
    ((∀ h d c cl, i ≠ .dynhdr h d c cl) →
      t.hlit = s.hlit ∧ t.hdist = s.hdist ∧ t.hclen = s.hclen ∧ t.cll = s.cll ∧ t.clTab = s.clTab ∧
        (isClEntry i = false → t.lcnt = s.lcnt)) ∧
    (isClEntry i = false → t.lens = s.lens) ∧
    ((∀ c f, i ≠ .zhdr c f) → (∀ a, i ≠ .ztrl a) → isBhdr i = false → t.blkCount = s.blkCount) ∧
    (isBhdr i = false → t.blkOpen = s.blkOpen ∨ t.st = .error) ∧
    (t.st = .error ∨ (t.errCode = s.errCode ∧ t.errPos = s.errPos ∧ t.errBlk = s.errBlk))

/-- R77: which bytes of OUT an instruction writes. A row that appends nothing leaves all of OUT; a literal row and STBYTE
write the byte at OUT_LEN and no other; a MATCH writes its length's bytes from OUT_LEN on and no other, and none when it
raises. -/
def Obligations.OutBytesChangeOnlyWhereAppended : Prop :=
  ∀ (i : Instr) (s t : State), s.out.wf → exec i s = .next t →
    (appendsBytes i = false → t.outLen = s.outLen ∧ ∀ a, readByteAt t.out a = readByteAt s.out a) ∧
    (∀ b, (i = .stbyte b ∨ ∃ n, litPart? i = some (n, b)) →
      t.outLen = s.outLen + 1 ∧ ∀ a, readByteAt t.out a = if a = s.outLen then b else readByteAt s.out a) ∧
    (∀ m, (lenPart? i = some m ∨ ∃ p, distPart? i = some (m, p)) →
      (t.outLen = s.outLen ∨ t.outLen = s.outLen + (lenBase m.sym + m.extra)) ∧
      ∀ a, ¬ (s.outLen ≤ a ∧ a < t.outLen) → readByteAt t.out a = readByteAt s.out a)

/-- R38, R266: TRACE only grows, and only its last record changes: every record before it is as it was. -/
def Obligations.EarlierRecordsNeverChange : Prop :=
  ∀ s t : State, Inv s → coreStep s = .next t →
    s.blkCount ≤ t.blkCount ∧ ∀ k, k + 1 < s.blkCount → t.trace[k]? = s.trace[k]?

/-! ## The reader (40_bitreader.md, 20_memory.md) -/

/-- R121, R122, R128, R70: ReadBits(n) answers the n stream bits from the cursor on, the first as bit 0, and moves the
cursor past them; with fewer bits left it fails. With n = 0 it answers 0 and moves nothing. -/
def Obligations.ReadBitsIsLsbFirst : Prop :=
  ∀ (n : Nat) (s : State),
    (n ≤ avail s → ∃ v, readBits n s = some (v, setCursor (bitOffset s + n) s) ∧ v < 2 ^ n ∧
      ∀ i, i < n → v.testBit i = (readByteAt s.inMem ((bitOffset s + i) / 8)).getLsbD ((bitOffset s + i) % 8)) ∧
    (avail s < n → readBits n s = none) ∧
    readBits 0 s = some (0, s)

/-- R124, R125, R128, R76: AlignToByte moves the cursor to the next byte boundary and does nothing on one; ReadBytes(n)
answers the n bytes of IN from the aligned cursor on and moves past them, or fails where they are not all there. -/
def Obligations.ReadBytesAlignsAndReads : Prop :=
  (∀ s : State,
    (s.curBit = 0 → alignToByte s = s) ∧
    (s.curBit ≠ 0 → alignToByte s = { s with curByte := s.curByte + 1, curBit := 0 }) ∧
    bitOffset (alignToByte s) = 8 * ((bitOffset s + 7) / 8)) ∧
  ∀ (n : Nat) (s : State), 1 ≤ n →
    (alignedByte s + n ≤ s.inLen →
      readBytes n s = some (readBytesAt s.inMem (alignedByte s) n,
        { s with curByte := alignedByte s + n, curBit := 0 })) ∧
    (s.inLen < alignedByte s + n → readBytes n s = none)

/-! ## Canonical codes (41_huffman.md) -/

/-- R141, R142: Build accepts exactly the complete length arrays, and the code it assigns to a symbol is the first code of
its length, by the recurrence of the rule, plus how many smaller symbols have that length; a symbol of length 0 has
none. -/
def Obligations.BuildAssignsCanonicalCodes : Prop :=
  (∀ lens : List Nat,
    (build lens).isSome = true ↔ (lens.map fun l => if l = 0 then 0 else 2 ^ (15 - l)).sum = 2 ^ 15) ∧
  (∀ n, build (List.replicate n 0) = none) ∧
  (∀ lens : List Nat, firstCode lens 1 = 0 ∧
    ∀ n, 2 ≤ n → firstCode lens n = (firstCode lens (n - 1) + lens.count (n - 1)) <<< 1) ∧
  ∀ (lens : List Nat) (t : HuffTable) (sym l : Nat), (∀ x ∈ lens, x ≤ 15) → build lens = some t →
    t.map CodeEntry.sym = (List.range lens.length).filter (fun k => lens.getD k 0 ≠ 0) ∧
    (lens[sym]? = some l → l ≠ 0 → lookupCode t (firstCode lens l + (lens.take sym).count l) l = some sym)

/-- R143: after a successful Build every code fits its length, no code is a prefix of another, and every 15-bit sequence
begins with a code. -/
def Obligations.BuildGivesACompletePrefixCode : Prop :=
  ∀ (lens : List Nat) (t : HuffTable), (∀ l ∈ lens, l ≤ 15) → build lens = some t →
    codesFit t ∧ prefixFree t ∧ oneCodeEach t ∧ complete t

/-- R146, R71, R148: Decode reads a code most significant bit first and answers its symbol and exactly its bits. -/
def Obligations.DecodeFindsEveryCode : Prop :=
  ∀ (t : HuffTable) (e : CodeEntry) (rest : Bits), codesFit t → prefixFree t → e ∈ t →
    decodeSymbol t ((List.range e.len).map (fun j => e.code.testBit (e.len - 1 - j)) ++ rest) =
      .found e.sym e.len rest

/-- R150, R151: the fixed tables are what Build answers for their length arrays, and hold the codes the rules list. -/
def Obligations.FixedTablesAreBuilt : Prop :=
  build (List.replicate 144 8 ++ List.replicate 112 9 ++ List.replicate 24 7 ++ List.replicate 8 8) = some fixLit ∧
  build (List.replicate 32 5) = some fixDist ∧
  (∀ k, k < 144 → lookupCode fixLit (0x30 + k) 8 = some k) ∧
  (∀ k, k < 112 → lookupCode fixLit (0x190 + k) 9 = some (144 + k)) ∧
  (∀ k, k < 24 → lookupCode fixLit k 7 = some (256 + k)) ∧
  (∀ k, k < 8 → lookupCode fixLit (0xC0 + k) 8 = some (280 + k)) ∧
  ∀ k, k < 32 → lookupCode fixDist k 5 = some k

/-! ## Encoding (30_encoding.md) -/

/-- R91, R97, R98, R99: words written out from the encodings of the opcode table decode to their rows. A sanity
statement. -/
def Obligations.WrittenWordsDecode : Prop :=
  decode (.zhdr 0)
    [false, false, false, true, true, true, true, false, false, false, true, true, true, false, false, true] =
      .elem (.zhdr 0x78 0x9C) 16 ∧
  decode .bhdr [true, true, false] = .elem (.bhdrFixed true) 3 ∧
  decode .symFixed [true, false, false, true, true, false, false, false] = .elem (.lit8c 0x18) 8 ∧
  decode .symFixed [false, false, false, false, false, false, false] = .elem .eob 7 ∧
  decode .symFixed [true, true, false, false, false, true, true, false] = .elem .badLit286 8 ∧
  decode (.distFixed ⟨257, 0, 7⟩) [false, false, true, false, false, true] = .elem (.dist4 ⟨257, 0, 7⟩ 1) 6 ∧
  decode (.stbyte 0) [true, false, false, false, false, true, true, false] = .elem (.stbyte 0x61) 8

/-- Decode after encode, for every well-formed instruction in every context that has an encoding for it: no bit of an
encoding is dropped, and the bits behind it are left alone. -/
def Obligations.DecodeOfEncode : Prop :=
  ∀ (ctx : Ctx) (i : Instr) (bs rest : Bits), tablesBuilt ctx → wellFormed i = true → encode ctx i = some bs →
    decode ctx (bs ++ rest) = .elem i bs.length

/-- Encode after decode: an element is well-formed, and its encoding is exactly the bits it was decoded from. -/
def Obligations.EncodeOfDecode : Prop :=
  ∀ (ctx : Ctx) (i : Instr) (bs : Bits) (n : Nat), tablesBuilt ctx → atCursor ctx → decode ctx bs = .elem i n →
    wellFormed i = true ∧ encode ctx i = some (bs.take n) ∧ n ≤ bs.length

/-! ## Back-references (44_symbols.md R245, 70_reset_and_hazards.md R335) -/

/-- R245, R246: Resolve answers `length` bytes, byte i being H[start + (i mod dist)]; past the distance it echoes the bytes
it has just produced. -/
def Obligations.ResolveRepeatsWithItsDistance : Prop :=
  ∀ (len dist : Nat) (s : State), 1 ≤ dist → dist ≤ s.outLen →
    (resolve len dist s).length = len ∧
    (∀ i, i < len → (resolve len dist s)[i]? = some (outRead s (s.outLen - dist + i % dist))) ∧
    ∀ i, dist ≤ i → i < len → (resolve len dist s)[i]? = (resolve len dist s)[i - dist]?

/-- R245, R335: a back-reference gives what copying one byte at a time gives, overlap included: every appended byte equals
the byte `dist` before it. -/
def Obligations.CopyEqualsByteAtATimeCopy : Prop :=
  ∀ (i : Instr) (m : LenPart) (p : DistPart) (s t : State), s.out.wf → distPart? i = some (m, p) →
    exec i s = .next t → t.st ≠ .error →
    ∀ k, k < lenBase m.sym + m.extra →
      outRead t (s.outLen + k) = outRead t (s.outLen + k - (distBase p.sym + p.extra))

/-! ## Memory -/

/-- A byte reads as the value last written to it and a write leaves every other byte alone (R76 to R78), and the canonical
form is unique: memories that read the same everywhere are equal data. That memories have a canonical form, and that an
unlisted byte reads 0, is the model's choice and no rule of the spec (logs 18, 4, DESIGN CHOICE). -/
def Obligations.MemoryIsWhatItsReadsSay : Prop :=
  (∀ (m : Memory) (a k : Nat) (b : Byte), m.wf →
    readByteAt (writeByteAt m a b) k = if k = a then b else readByteAt m k) ∧
  ∀ m m' : Memory, m.wf → m'.wf → (∀ a, readByteAt m a = readByteAt m' a) → m = m'

/-! ## Capacities (70_reset_and_hazards.md R331) -/

/-- R331: a capacity stop is all or nothing. With the block list full no record is opened or appended; with OUT too full
for an element's bytes none of them is written; with the record full no item is added; the machine stops with the
capacity's name (log 3), and a turn the host leaves to the core changes nothing. That P_MAX_ITEMS counts per record, and
that a pseudo-block's one item counts, is log 11. -/
def Obligations.CapacityStopsAreWhole : Prop :=
  ∀ s : State,
    (Params.reached s.params.maxBlocks s.blkCount = true →
      (∀ f, exec (.bhdrStored f) s = .fault .blocksFull ∧ exec (.bhdrFixed f) s = .fault .blocksFull ∧
        exec (.bhdrDynamic f) s = .fault .blocksFull) ∧
      (∀ c f, exec (.zhdr c f) s = .fault .blocksFull) ∧ (∀ a, exec (.ztrl a) s = .fault .blocksFull)) ∧
    (Params.reached s.params.maxBlocks s.blkCount = false → Params.reached s.params.maxItems 0 = true →
      (∀ c f, exec (.zhdr c f) s = .fault .itemsFull) ∧ (∀ a, exec (.ztrl a) s = .fault .itemsFull)) ∧
    (¬ outRoom 1 s →
      (∀ b, exec (.stbyte b) s = .fault .outFull) ∧
      ∀ i n b, litPart? i = some (n, b) → exec i s = .fault .outFull) ∧
    (¬ itemRoom s →
      (outRoom 1 s →
        (∀ b, exec (.stbyte b) s = .fault .itemsFull) ∧
        ∀ i n b, litPart? i = some (n, b) → exec i s = .fault .itemsFull) ∧
      exec .eob s = .fault .itemsFull ∧ (∀ n, exec (.eobDyn n) s = .fault .itemsFull) ∧
      (∀ h d c cl, exec (.dynhdr h d c cl) s = .fault .itemsFull) ∧
      (∀ n v, exec (.clLen n v) s = .fault .itemsFull) ∧
      (∀ n e, s.lcnt ≠ 0 → s.lcnt.toNat + (3 + e.toNat) ≤ s.hlit.toNat + s.hdist.toNat →
        exec (.cl16 n e) s = .fault .itemsFull) ∧
      (∀ n e, s.lcnt.toNat + (3 + e.toNat) ≤ s.hlit.toNat + s.hdist.toNat → exec (.cl17 n e) s = .fault .itemsFull) ∧
      ∀ n e, s.lcnt.toNat + (11 + e.toNat) ≤ s.hlit.toNat + s.hdist.toNat → exec (.cl18 n e) s = .fault .itemsFull) ∧
    (∀ i m p, wellFormed i = true → distPart? i = some (m, p) → p.sym < 30 →
      distBase p.sym + p.extra ≤ s.outLen →
      (¬ outRoom (lenBase m.sym + m.extra) s → exec i s = .fault .outFull) ∧
      (outRoom (lenBase m.sym + m.extra) s → ¬ itemRoom s → exec i s = .fault .itemsFull)) ∧
    (∀ i m d k de, lenPart? i = some m →
      readCoded (distTableOf i s) distExtra (stream (setCursor (bitOffset s + m.bits) s)) = .coded d k de → d < 30 →
      distBase d + de ≤ s.outLen →
      (¬ outRoom (lenBase m.sym + m.extra) s → exec i s = .fault .outFull) ∧
      (outRoom (lenBase m.sym + m.extra) s → ¬ itemRoom s → exec i s = .fault .itemsFull)) ∧
    (∀ ms r, s.host = .coreTurn :: ms → coreStep { s with host := ms } = .fault r →
      step s = .next { s with host := ms })

/-- R260, R261, R331: a BUSY core has a step unless a capacity is reached, and a core that is not BUSY has none. -/
def Obligations.BusyCoreStepsUnlessACapacityStopsIt : Prop :=
  ∀ s : State, s.host = [] →
    (busy s = true → (∃ t, step s = .next t) ∨ ∃ r, step s = .fault r ∧ isCapacityStop r) ∧
    (busy s = true → s.params = Params.reference → ∃ t, step s = .next t) ∧
    (busy s = false → step s = .fault .noStep)

/-! ## Invariants and whole runs -/

/-- Every boot state meets the three invariants. -/
def Obligations.BootStatesMeetTheInvariants : Prop :=
  ∀ (p : Params) (moves : List HostMove), p.ok = true →
    Inv (bootState p moves) ∧ TraceInv (bootState p moves) ∧ OutInv (bootState p moves)

/-- R22, R25, R27, R32, R38, R300: the invariant of the state is kept by every step, of the core or of the host. -/
def Obligations.EveryStepKeepsTheStateInvariant : Prop :=
  ∀ s t : State, Inv s → step s = .next t → Inv t

/-- R53, R190, R267, R280, R281, R282, R301: the invariant of the block list is kept by every step: records and items are
numbered in order, items tile each block behind its header, blocks follow one another without a gap, and only the last
record can be open or partial. -/
def Obligations.EveryStepKeepsTheTraceInvariant : Prop :=
  ∀ s t : State, Inv s → TraceInv s → step s = .next t → TraceInv t

/-- R278, R42: the invariant of the output is kept by every step: OUT is the concatenation of what the items contribute,
record by record. -/
def Obligations.EveryStepKeepsTheOutputInvariant : Prop :=
  ∀ s t : State, Inv s → TraceInv s → OutInv s → step s = .next t → OutInv t

/-- R276: a decode the host leaves alone ends in DONE or in ERROR within 2*8*IN_LEN + 2 steps, unless a capacity stop
halts it first. -/
def Obligations.EveryDecodeEnds : Prop :=
  ∀ s : State, s.host = [] → s.st = .zhdr → bitOffset s = 0 →
    ∃ k, k ≤ 2 * (8 * s.inLen) + 2 ∧
      ((∃ t, stepRun k s = .next t ∧ (t.st = .done ∨ t.st = .error)) ∨ ∃ r, stepRun k s = .fault r ∧ isCapacityStop r)

/-- R303, R302, R304: ERROR is left only by the host's START or RESET; no core step leaves it. -/
def Obligations.ErrorIsLeftOnlyByStartOrReset : Prop :=
  ∀ s t : State, s.st = .error →
    coreStep s ≠ .next t ∧
    (step s = .next t → t.st ≠ .error →
      ∃ v ms, s.host = .writeReg 0x0 v :: ms ∧ ((regValue s v).testBit 0 = true ∨ (regValue s v).testBit 1 = true))
end

