-- ==== Sys2Proof/Laws/HostPort.lean ====
section
/-! SUPPORT. The placement of the address spaces: an address of a space lies in that space and in no other. -/

namespace Sys2Proof.Machine

theorem has_of_lt {r : Region} {k : Nat} (h : k < r.size) : r.has (r.base + k) = true := by
  simp [Region.has, h]

theorem not_has_of_apart {r q : Region} {k : Nat} (h : r.apart q = true) (hk : k < q.size) :
    r.has (q.base + k) = false := by
  simp only [Region.apart, Region.has, Bool.or_eq_true, decide_eq_true_eq, Bool.and_eq_false_iff,
    decide_eq_false_iff_not] at *
  omega

/-- With the spaces disjoint, the host address of an offset of a space leads back to that space and offset
(20_memory.md R79). -/
theorem spaceAt_hostAddress {s : State} {sp : Space} {k addr : Nat} (hp : s.params.ok = true)
    (h : hostAddress s sp k = some addr) : spaceAt s addr = some (sp, k) := by
  unfold hostAddress at h
  unfold spaceAt
  cases hm : s.params.map with
  | none => simp [hm] at h
  | some m =>
    have hok : m.ok = true := by
      simp only [Params.ok, hm, Bool.and_eq_true] at hp
      exact hp.2
    simp only [AddressMap.ok, Bool.and_eq_true] at hok
    simp only [hm, Option.bind_some, Option.ite_none_right_eq_some, Option.some.injEq] at h
    obtain ⟨hk, rfl⟩ := h
    cases sp <;>
      simp_all [AddressMap.region, has_of_lt, not_has_of_apart]

end Sys2Proof.Machine
end

