-- ==== Sys2Proof/Laws/Memory.lean ====
section
/-! SUPPORT. The byte memories: every write keeps the canonical form, and the list reads. -/

namespace Sys2Proof.Machine

theorem wf_nil : Memory.wf [] := by simp [Memory.wf]

/-- A canonical memory, taken apart at its head. -/
theorem wf_cons {k : Nat} {v : Byte} {m : Memory} :
    Memory.wf ((k, v) :: m) ↔ (∀ c ∈ m, k < c.1) ∧ v ≠ unlistedByte ∧ Memory.wf m := by
  simp only [Memory.wf, List.pairwise_cons, List.mem_cons, forall_eq_or_imp]
  tauto

/-- Every cell of a written memory is the written one or an old one. -/
theorem mem_writeByteAt {m : Memory} {a : Nat} {b : Byte} {c : Host.Cell} (h : c ∈ writeByteAt m a b) :
    c = (a, b) ∨ c ∈ m := by
  induction m with
  | nil =>
    unfold writeByteAt at h
    split at h <;> simp_all
  | cons d m ih =>
    obtain ⟨k, v⟩ := d
    unfold writeByteAt at h
    split at h
    · split at h
      · exact .inr h
      · simp only [List.mem_cons] at h ⊢; tauto
    · split at h
      · split at h
        · exact .inr (List.mem_cons_of_mem _ h)
        · simp only [List.mem_cons] at h ⊢; tauto
      · rcases List.mem_cons.mp h with rfl | h
        · simp
        · rcases ih h with h | h
          · exact .inl h
          · exact .inr (List.mem_cons_of_mem _ h)

/-- A write of one byte keeps the canonical form. -/
theorem writeByteAt_wf {m : Memory} (h : m.wf) (a : Nat) (b : Byte) : Memory.wf (writeByteAt m a b) := by
  induction m with
  | nil =>
    unfold writeByteAt
    split <;> simp_all [Memory.wf]
  | cons c m ih =>
    obtain ⟨k, v⟩ := c
    obtain ⟨hlt, hv, hm⟩ := wf_cons.mp h
    unfold writeByteAt
    split
    · split
      · exact h
      · refine wf_cons.mpr ⟨fun c hc => ?_, ‹_›, h⟩
        rcases List.mem_cons.mp hc with rfl | hc
        · assumption
        · exact lt_trans ‹_› (hlt c hc)
    · split
      · split
        · exact hm
        · exact wf_cons.mpr ⟨fun c hc => ‹a = k› ▸ hlt c hc, ‹_›, hm⟩
      · refine wf_cons.mpr ⟨fun c hc => ?_, hv, ih hm⟩
        rcases mem_writeByteAt hc with rfl | hc
        · exact (by omega : k < a)
        · exact hlt c hc

/-- A write of a list of bytes keeps the canonical form. -/
theorem writeBytesAt_wf {m : Memory} (h : m.wf) (a : Nat) (bs : List Byte) : Memory.wf (writeBytesAt m a bs) := by
  induction bs generalizing m a with
  | nil => exact h
  | cons b bs ih => exact ih (writeByteAt_wf h a b) (a + 1)

@[simp] theorem readBytesAt_length (m : Memory) (a n : Nat) : (readBytesAt m a n).length = n := by
  induction n generalizing a with
  | zero => rfl
  | succ n ih => simp [readBytesAt, ih]

/-- A list read holds the byte of each address. -/
theorem readBytesAt_getElem (m : Memory) (a n i : Nat) (h : i < (readBytesAt m a n).length) :
    (readBytesAt m a n)[i] = readByteAt m (a + i) := by
  induction n generalizing a i with
  | zero => simp [readBytesAt] at h
  | succ n ih =>
    cases i with
    | zero => rfl
    | succ i =>
      simp only [readBytesAt, List.getElem_cons_succ]
      rw [ih]
      congr 1
      omega

/-- A list read is cut anywhere. -/
theorem readBytesAt_add (m : Memory) (a n k : Nat) :
    readBytesAt m a (n + k) = readBytesAt m a n ++ readBytesAt m (a + n) k := by
  induction n generalizing a with
  | zero => simp [readBytesAt]
  | succ n ih =>
    rw [show n + 1 + k = (n + k) + 1 by omega]
    simp only [readBytesAt, List.cons_append, ih]
    rw [show a + 1 + n = a + (n + 1) by omega]

@[simp] theorem bitsAt_length (m : Memory) (n k : Nat) : (bitsAt m n k).length = n := by
  induction n generalizing k with
  | zero => rfl
  | succ n ih => simp [bitsAt, ih]

/-- Dropping the first bits moves the start of a bit read. -/
theorem bitsAt_drop (m : Memory) (n k j : Nat) : (bitsAt m n k).drop j = bitsAt m (n - j) (k + j) := by
  induction j generalizing n k with
  | zero => rfl
  | succ j ih =>
    cases n with
    | zero => simp [bitsAt]
    | succ n =>
      simp only [bitsAt, List.drop_succ_cons, ih]
      rw [show n + 1 - (j + 1) = n - j by omega, show k + 1 + j = k + (j + 1) by omega]

end Sys2Proof.Machine
end

