-- ==== Sys2Proof/Laws/State.lean ====
section
/-! SUPPORT. One lemma for each field of State and each named update: what the update leaves in the field. -/

namespace Sys2Proof.Machine

/-! ### `setCursor` -/

@[simp] theorem setCursor_st (k : Nat) (s : State) : (setCursor k s).st = s.st := rfl
@[simp] theorem setCursor_curByte (k : Nat) (s : State) : (setCursor k s).curByte = k / 8 := rfl
@[simp] theorem setCursor_curBit (k : Nat) (s : State) : (setCursor k s).curBit = BitVec.ofNat 3 (k % 8) := rfl
@[simp] theorem setCursor_inLen (k : Nat) (s : State) : (setCursor k s).inLen = s.inLen := rfl
@[simp] theorem setCursor_bfinal (k : Nat) (s : State) : (setCursor k s).bfinal = s.bfinal := rfl
@[simp] theorem setCursor_btype (k : Nat) (s : State) : (setCursor k s).btype = s.btype := rfl
@[simp] theorem setCursor_tsel (k : Nat) (s : State) : (setCursor k s).tsel = s.tsel := rfl
@[simp] theorem setCursor_hlit (k : Nat) (s : State) : (setCursor k s).hlit = s.hlit := rfl
@[simp] theorem setCursor_hdist (k : Nat) (s : State) : (setCursor k s).hdist = s.hdist := rfl
@[simp] theorem setCursor_hclen (k : Nat) (s : State) : (setCursor k s).hclen = s.hclen := rfl
@[simp] theorem setCursor_lcnt (k : Nat) (s : State) : (setCursor k s).lcnt = s.lcnt := rfl
@[simp] theorem setCursor_slen (k : Nat) (s : State) : (setCursor k s).slen = s.slen := rfl
@[simp] theorem setCursor_snlen (k : Nat) (s : State) : (setCursor k s).snlen = s.snlen := rfl
@[simp] theorem setCursor_srem (k : Nat) (s : State) : (setCursor k s).srem = s.srem := rfl
@[simp] theorem setCursor_outLen (k : Nat) (s : State) : (setCursor k s).outLen = s.outLen := rfl
@[simp] theorem setCursor_blkCount (k : Nat) (s : State) : (setCursor k s).blkCount = s.blkCount := rfl
@[simp] theorem setCursor_blkOpen (k : Nat) (s : State) : (setCursor k s).blkOpen = s.blkOpen := rfl
@[simp] theorem setCursor_blkStart (k : Nat) (s : State) : (setCursor k s).blkStart = s.blkStart := rfl
@[simp] theorem setCursor_blkOutStart (k : Nat) (s : State) : (setCursor k s).blkOutStart = s.blkOutStart := rfl
@[simp] theorem setCursor_zcmf (k : Nat) (s : State) : (setCursor k s).zcmf = s.zcmf := rfl
@[simp] theorem setCursor_zflg (k : Nat) (s : State) : (setCursor k s).zflg = s.zflg := rfl
@[simp] theorem setCursor_adler (k : Nat) (s : State) : (setCursor k s).adler = s.adler := rfl
@[simp] theorem setCursor_hdrValid (k : Nat) (s : State) : (setCursor k s).hdrValid = s.hdrValid := rfl
@[simp] theorem setCursor_trlValid (k : Nat) (s : State) : (setCursor k s).trlValid = s.trlValid := rfl
@[simp] theorem setCursor_errCode (k : Nat) (s : State) : (setCursor k s).errCode = s.errCode := rfl
@[simp] theorem setCursor_errPos (k : Nat) (s : State) : (setCursor k s).errPos = s.errPos := rfl
@[simp] theorem setCursor_errBlk (k : Nat) (s : State) : (setCursor k s).errBlk = s.errBlk := rfl
@[simp] theorem setCursor_cll (k : Nat) (s : State) : (setCursor k s).cll = s.cll := rfl
@[simp] theorem setCursor_lens (k : Nat) (s : State) : (setCursor k s).lens = s.lens := rfl
@[simp] theorem setCursor_clTab (k : Nat) (s : State) : (setCursor k s).clTab = s.clTab := rfl
@[simp] theorem setCursor_litTab (k : Nat) (s : State) : (setCursor k s).litTab = s.litTab := rfl
@[simp] theorem setCursor_distTab (k : Nat) (s : State) : (setCursor k s).distTab = s.distTab := rfl
@[simp] theorem setCursor_inMem (k : Nat) (s : State) : (setCursor k s).inMem = s.inMem := rfl
@[simp] theorem setCursor_out (k : Nat) (s : State) : (setCursor k s).out = s.out := rfl
@[simp] theorem setCursor_trace (k : Nat) (s : State) : (setCursor k s).trace = s.trace := rfl
@[simp] theorem setCursor_params (k : Nat) (s : State) : (setCursor k s).params = s.params := rfl
@[simp] theorem setCursor_host (k : Nat) (s : State) : (setCursor k s).host = s.host := rfl

/-! ### `advance` -/

@[simp] theorem advance_st (n : Nat) (s : State) : (advance n s).st = s.st := rfl
@[simp] theorem advance_inLen (n : Nat) (s : State) : (advance n s).inLen = s.inLen := rfl
@[simp] theorem advance_bfinal (n : Nat) (s : State) : (advance n s).bfinal = s.bfinal := rfl
@[simp] theorem advance_btype (n : Nat) (s : State) : (advance n s).btype = s.btype := rfl
@[simp] theorem advance_tsel (n : Nat) (s : State) : (advance n s).tsel = s.tsel := rfl
@[simp] theorem advance_hlit (n : Nat) (s : State) : (advance n s).hlit = s.hlit := rfl
@[simp] theorem advance_hdist (n : Nat) (s : State) : (advance n s).hdist = s.hdist := rfl
@[simp] theorem advance_hclen (n : Nat) (s : State) : (advance n s).hclen = s.hclen := rfl
@[simp] theorem advance_lcnt (n : Nat) (s : State) : (advance n s).lcnt = s.lcnt := rfl
@[simp] theorem advance_slen (n : Nat) (s : State) : (advance n s).slen = s.slen := rfl
@[simp] theorem advance_snlen (n : Nat) (s : State) : (advance n s).snlen = s.snlen := rfl
@[simp] theorem advance_srem (n : Nat) (s : State) : (advance n s).srem = s.srem := rfl
@[simp] theorem advance_outLen (n : Nat) (s : State) : (advance n s).outLen = s.outLen := rfl
@[simp] theorem advance_blkCount (n : Nat) (s : State) : (advance n s).blkCount = s.blkCount := rfl
@[simp] theorem advance_blkOpen (n : Nat) (s : State) : (advance n s).blkOpen = s.blkOpen := rfl
@[simp] theorem advance_blkStart (n : Nat) (s : State) : (advance n s).blkStart = s.blkStart := rfl
@[simp] theorem advance_blkOutStart (n : Nat) (s : State) : (advance n s).blkOutStart = s.blkOutStart := rfl
@[simp] theorem advance_zcmf (n : Nat) (s : State) : (advance n s).zcmf = s.zcmf := rfl
@[simp] theorem advance_zflg (n : Nat) (s : State) : (advance n s).zflg = s.zflg := rfl
@[simp] theorem advance_adler (n : Nat) (s : State) : (advance n s).adler = s.adler := rfl
@[simp] theorem advance_hdrValid (n : Nat) (s : State) : (advance n s).hdrValid = s.hdrValid := rfl
@[simp] theorem advance_trlValid (n : Nat) (s : State) : (advance n s).trlValid = s.trlValid := rfl
@[simp] theorem advance_errCode (n : Nat) (s : State) : (advance n s).errCode = s.errCode := rfl
@[simp] theorem advance_errPos (n : Nat) (s : State) : (advance n s).errPos = s.errPos := rfl
@[simp] theorem advance_errBlk (n : Nat) (s : State) : (advance n s).errBlk = s.errBlk := rfl
@[simp] theorem advance_cll (n : Nat) (s : State) : (advance n s).cll = s.cll := rfl
@[simp] theorem advance_lens (n : Nat) (s : State) : (advance n s).lens = s.lens := rfl
@[simp] theorem advance_clTab (n : Nat) (s : State) : (advance n s).clTab = s.clTab := rfl
@[simp] theorem advance_litTab (n : Nat) (s : State) : (advance n s).litTab = s.litTab := rfl
@[simp] theorem advance_distTab (n : Nat) (s : State) : (advance n s).distTab = s.distTab := rfl
@[simp] theorem advance_inMem (n : Nat) (s : State) : (advance n s).inMem = s.inMem := rfl
@[simp] theorem advance_out (n : Nat) (s : State) : (advance n s).out = s.out := rfl
@[simp] theorem advance_trace (n : Nat) (s : State) : (advance n s).trace = s.trace := rfl
@[simp] theorem advance_params (n : Nat) (s : State) : (advance n s).params = s.params := rfl
@[simp] theorem advance_host (n : Nat) (s : State) : (advance n s).host = s.host := rfl

/-! ### `alignToByte` -/

@[simp] theorem alignToByte_st (s : State) : (alignToByte s).st = s.st := by unfold alignToByte; split <;> rfl
@[simp] theorem alignToByte_inLen (s : State) : (alignToByte s).inLen = s.inLen := by unfold alignToByte; split <;> rfl
@[simp] theorem alignToByte_bfinal (s : State) : (alignToByte s).bfinal = s.bfinal := by unfold alignToByte; split <;> rfl
@[simp] theorem alignToByte_btype (s : State) : (alignToByte s).btype = s.btype := by unfold alignToByte; split <;> rfl
@[simp] theorem alignToByte_tsel (s : State) : (alignToByte s).tsel = s.tsel := by unfold alignToByte; split <;> rfl
@[simp] theorem alignToByte_hlit (s : State) : (alignToByte s).hlit = s.hlit := by unfold alignToByte; split <;> rfl
@[simp] theorem alignToByte_hdist (s : State) : (alignToByte s).hdist = s.hdist := by unfold alignToByte; split <;> rfl
@[simp] theorem alignToByte_hclen (s : State) : (alignToByte s).hclen = s.hclen := by unfold alignToByte; split <;> rfl
@[simp] theorem alignToByte_lcnt (s : State) : (alignToByte s).lcnt = s.lcnt := by unfold alignToByte; split <;> rfl
@[simp] theorem alignToByte_slen (s : State) : (alignToByte s).slen = s.slen := by unfold alignToByte; split <;> rfl
@[simp] theorem alignToByte_snlen (s : State) : (alignToByte s).snlen = s.snlen := by unfold alignToByte; split <;> rfl
@[simp] theorem alignToByte_srem (s : State) : (alignToByte s).srem = s.srem := by unfold alignToByte; split <;> rfl
@[simp] theorem alignToByte_outLen (s : State) : (alignToByte s).outLen = s.outLen := by unfold alignToByte; split <;> rfl
@[simp] theorem alignToByte_blkCount (s : State) : (alignToByte s).blkCount = s.blkCount := by unfold alignToByte; split <;> rfl
@[simp] theorem alignToByte_blkOpen (s : State) : (alignToByte s).blkOpen = s.blkOpen := by unfold alignToByte; split <;> rfl
@[simp] theorem alignToByte_blkStart (s : State) : (alignToByte s).blkStart = s.blkStart := by unfold alignToByte; split <;> rfl
@[simp] theorem alignToByte_blkOutStart (s : State) : (alignToByte s).blkOutStart = s.blkOutStart := by unfold alignToByte; split <;> rfl
@[simp] theorem alignToByte_zcmf (s : State) : (alignToByte s).zcmf = s.zcmf := by unfold alignToByte; split <;> rfl
@[simp] theorem alignToByte_zflg (s : State) : (alignToByte s).zflg = s.zflg := by unfold alignToByte; split <;> rfl
@[simp] theorem alignToByte_adler (s : State) : (alignToByte s).adler = s.adler := by unfold alignToByte; split <;> rfl
@[simp] theorem alignToByte_hdrValid (s : State) : (alignToByte s).hdrValid = s.hdrValid := by unfold alignToByte; split <;> rfl
@[simp] theorem alignToByte_trlValid (s : State) : (alignToByte s).trlValid = s.trlValid := by unfold alignToByte; split <;> rfl
@[simp] theorem alignToByte_errCode (s : State) : (alignToByte s).errCode = s.errCode := by unfold alignToByte; split <;> rfl
@[simp] theorem alignToByte_errPos (s : State) : (alignToByte s).errPos = s.errPos := by unfold alignToByte; split <;> rfl
@[simp] theorem alignToByte_errBlk (s : State) : (alignToByte s).errBlk = s.errBlk := by unfold alignToByte; split <;> rfl
@[simp] theorem alignToByte_cll (s : State) : (alignToByte s).cll = s.cll := by unfold alignToByte; split <;> rfl
@[simp] theorem alignToByte_lens (s : State) : (alignToByte s).lens = s.lens := by unfold alignToByte; split <;> rfl
@[simp] theorem alignToByte_clTab (s : State) : (alignToByte s).clTab = s.clTab := by unfold alignToByte; split <;> rfl
@[simp] theorem alignToByte_litTab (s : State) : (alignToByte s).litTab = s.litTab := by unfold alignToByte; split <;> rfl
@[simp] theorem alignToByte_distTab (s : State) : (alignToByte s).distTab = s.distTab := by unfold alignToByte; split <;> rfl
@[simp] theorem alignToByte_inMem (s : State) : (alignToByte s).inMem = s.inMem := by unfold alignToByte; split <;> rfl
@[simp] theorem alignToByte_out (s : State) : (alignToByte s).out = s.out := by unfold alignToByte; split <;> rfl
@[simp] theorem alignToByte_trace (s : State) : (alignToByte s).trace = s.trace := by unfold alignToByte; split <;> rfl
@[simp] theorem alignToByte_params (s : State) : (alignToByte s).params = s.params := by unfold alignToByte; split <;> rfl
@[simp] theorem alignToByte_host (s : State) : (alignToByte s).host = s.host := by unfold alignToByte; split <;> rfl

/-! ### `skipBytes` -/

@[simp] theorem skipBytes_st (n : Nat) (s : State) : (skipBytes n s).st = s.st := by simp [skipBytes]
@[simp] theorem skipBytes_inLen (n : Nat) (s : State) : (skipBytes n s).inLen = s.inLen := by simp [skipBytes]
@[simp] theorem skipBytes_bfinal (n : Nat) (s : State) : (skipBytes n s).bfinal = s.bfinal := by simp [skipBytes]
@[simp] theorem skipBytes_btype (n : Nat) (s : State) : (skipBytes n s).btype = s.btype := by simp [skipBytes]
@[simp] theorem skipBytes_tsel (n : Nat) (s : State) : (skipBytes n s).tsel = s.tsel := by simp [skipBytes]
@[simp] theorem skipBytes_hlit (n : Nat) (s : State) : (skipBytes n s).hlit = s.hlit := by simp [skipBytes]
@[simp] theorem skipBytes_hdist (n : Nat) (s : State) : (skipBytes n s).hdist = s.hdist := by simp [skipBytes]
@[simp] theorem skipBytes_hclen (n : Nat) (s : State) : (skipBytes n s).hclen = s.hclen := by simp [skipBytes]
@[simp] theorem skipBytes_lcnt (n : Nat) (s : State) : (skipBytes n s).lcnt = s.lcnt := by simp [skipBytes]
@[simp] theorem skipBytes_slen (n : Nat) (s : State) : (skipBytes n s).slen = s.slen := by simp [skipBytes]
@[simp] theorem skipBytes_snlen (n : Nat) (s : State) : (skipBytes n s).snlen = s.snlen := by simp [skipBytes]
@[simp] theorem skipBytes_srem (n : Nat) (s : State) : (skipBytes n s).srem = s.srem := by simp [skipBytes]
@[simp] theorem skipBytes_outLen (n : Nat) (s : State) : (skipBytes n s).outLen = s.outLen := by simp [skipBytes]
@[simp] theorem skipBytes_blkCount (n : Nat) (s : State) : (skipBytes n s).blkCount = s.blkCount := by simp [skipBytes]
@[simp] theorem skipBytes_blkOpen (n : Nat) (s : State) : (skipBytes n s).blkOpen = s.blkOpen := by simp [skipBytes]
@[simp] theorem skipBytes_blkStart (n : Nat) (s : State) : (skipBytes n s).blkStart = s.blkStart := by simp [skipBytes]
@[simp] theorem skipBytes_blkOutStart (n : Nat) (s : State) : (skipBytes n s).blkOutStart = s.blkOutStart := by simp [skipBytes]
@[simp] theorem skipBytes_zcmf (n : Nat) (s : State) : (skipBytes n s).zcmf = s.zcmf := by simp [skipBytes]
@[simp] theorem skipBytes_zflg (n : Nat) (s : State) : (skipBytes n s).zflg = s.zflg := by simp [skipBytes]
@[simp] theorem skipBytes_adler (n : Nat) (s : State) : (skipBytes n s).adler = s.adler := by simp [skipBytes]
@[simp] theorem skipBytes_hdrValid (n : Nat) (s : State) : (skipBytes n s).hdrValid = s.hdrValid := by simp [skipBytes]
@[simp] theorem skipBytes_trlValid (n : Nat) (s : State) : (skipBytes n s).trlValid = s.trlValid := by simp [skipBytes]
@[simp] theorem skipBytes_errCode (n : Nat) (s : State) : (skipBytes n s).errCode = s.errCode := by simp [skipBytes]
@[simp] theorem skipBytes_errPos (n : Nat) (s : State) : (skipBytes n s).errPos = s.errPos := by simp [skipBytes]
@[simp] theorem skipBytes_errBlk (n : Nat) (s : State) : (skipBytes n s).errBlk = s.errBlk := by simp [skipBytes]
@[simp] theorem skipBytes_cll (n : Nat) (s : State) : (skipBytes n s).cll = s.cll := by simp [skipBytes]
@[simp] theorem skipBytes_lens (n : Nat) (s : State) : (skipBytes n s).lens = s.lens := by simp [skipBytes]
@[simp] theorem skipBytes_clTab (n : Nat) (s : State) : (skipBytes n s).clTab = s.clTab := by simp [skipBytes]
@[simp] theorem skipBytes_litTab (n : Nat) (s : State) : (skipBytes n s).litTab = s.litTab := by simp [skipBytes]
@[simp] theorem skipBytes_distTab (n : Nat) (s : State) : (skipBytes n s).distTab = s.distTab := by simp [skipBytes]
@[simp] theorem skipBytes_inMem (n : Nat) (s : State) : (skipBytes n s).inMem = s.inMem := by simp [skipBytes]
@[simp] theorem skipBytes_out (n : Nat) (s : State) : (skipBytes n s).out = s.out := by simp [skipBytes]
@[simp] theorem skipBytes_trace (n : Nat) (s : State) : (skipBytes n s).trace = s.trace := by simp [skipBytes]
@[simp] theorem skipBytes_params (n : Nat) (s : State) : (skipBytes n s).params = s.params := by simp [skipBytes]
@[simp] theorem skipBytes_host (n : Nat) (s : State) : (skipBytes n s).host = s.host := by simp [skipBytes]

/-! ### `modifyRecord` -/

@[simp] theorem modifyRecord_st (f : BlockRecord → BlockRecord) (s : State) : (modifyRecord f s).st = s.st := rfl
@[simp] theorem modifyRecord_curByte (f : BlockRecord → BlockRecord) (s : State) : (modifyRecord f s).curByte = s.curByte := rfl
@[simp] theorem modifyRecord_curBit (f : BlockRecord → BlockRecord) (s : State) : (modifyRecord f s).curBit = s.curBit := rfl
@[simp] theorem modifyRecord_inLen (f : BlockRecord → BlockRecord) (s : State) : (modifyRecord f s).inLen = s.inLen := rfl
@[simp] theorem modifyRecord_bfinal (f : BlockRecord → BlockRecord) (s : State) : (modifyRecord f s).bfinal = s.bfinal := rfl
@[simp] theorem modifyRecord_btype (f : BlockRecord → BlockRecord) (s : State) : (modifyRecord f s).btype = s.btype := rfl
@[simp] theorem modifyRecord_tsel (f : BlockRecord → BlockRecord) (s : State) : (modifyRecord f s).tsel = s.tsel := rfl
@[simp] theorem modifyRecord_hlit (f : BlockRecord → BlockRecord) (s : State) : (modifyRecord f s).hlit = s.hlit := rfl
@[simp] theorem modifyRecord_hdist (f : BlockRecord → BlockRecord) (s : State) : (modifyRecord f s).hdist = s.hdist := rfl
@[simp] theorem modifyRecord_hclen (f : BlockRecord → BlockRecord) (s : State) : (modifyRecord f s).hclen = s.hclen := rfl
@[simp] theorem modifyRecord_lcnt (f : BlockRecord → BlockRecord) (s : State) : (modifyRecord f s).lcnt = s.lcnt := rfl
@[simp] theorem modifyRecord_slen (f : BlockRecord → BlockRecord) (s : State) : (modifyRecord f s).slen = s.slen := rfl
@[simp] theorem modifyRecord_snlen (f : BlockRecord → BlockRecord) (s : State) : (modifyRecord f s).snlen = s.snlen := rfl
@[simp] theorem modifyRecord_srem (f : BlockRecord → BlockRecord) (s : State) : (modifyRecord f s).srem = s.srem := rfl
@[simp] theorem modifyRecord_outLen (f : BlockRecord → BlockRecord) (s : State) : (modifyRecord f s).outLen = s.outLen := rfl
@[simp] theorem modifyRecord_blkCount (f : BlockRecord → BlockRecord) (s : State) : (modifyRecord f s).blkCount = s.blkCount := rfl
@[simp] theorem modifyRecord_blkOpen (f : BlockRecord → BlockRecord) (s : State) : (modifyRecord f s).blkOpen = s.blkOpen := rfl
@[simp] theorem modifyRecord_blkStart (f : BlockRecord → BlockRecord) (s : State) : (modifyRecord f s).blkStart = s.blkStart := rfl
@[simp] theorem modifyRecord_blkOutStart (f : BlockRecord → BlockRecord) (s : State) : (modifyRecord f s).blkOutStart = s.blkOutStart := rfl
@[simp] theorem modifyRecord_zcmf (f : BlockRecord → BlockRecord) (s : State) : (modifyRecord f s).zcmf = s.zcmf := rfl
@[simp] theorem modifyRecord_zflg (f : BlockRecord → BlockRecord) (s : State) : (modifyRecord f s).zflg = s.zflg := rfl
@[simp] theorem modifyRecord_adler (f : BlockRecord → BlockRecord) (s : State) : (modifyRecord f s).adler = s.adler := rfl
@[simp] theorem modifyRecord_hdrValid (f : BlockRecord → BlockRecord) (s : State) : (modifyRecord f s).hdrValid = s.hdrValid := rfl
@[simp] theorem modifyRecord_trlValid (f : BlockRecord → BlockRecord) (s : State) : (modifyRecord f s).trlValid = s.trlValid := rfl
@[simp] theorem modifyRecord_errCode (f : BlockRecord → BlockRecord) (s : State) : (modifyRecord f s).errCode = s.errCode := rfl
@[simp] theorem modifyRecord_errPos (f : BlockRecord → BlockRecord) (s : State) : (modifyRecord f s).errPos = s.errPos := rfl
@[simp] theorem modifyRecord_errBlk (f : BlockRecord → BlockRecord) (s : State) : (modifyRecord f s).errBlk = s.errBlk := rfl
@[simp] theorem modifyRecord_cll (f : BlockRecord → BlockRecord) (s : State) : (modifyRecord f s).cll = s.cll := rfl
@[simp] theorem modifyRecord_lens (f : BlockRecord → BlockRecord) (s : State) : (modifyRecord f s).lens = s.lens := rfl
@[simp] theorem modifyRecord_clTab (f : BlockRecord → BlockRecord) (s : State) : (modifyRecord f s).clTab = s.clTab := rfl
@[simp] theorem modifyRecord_litTab (f : BlockRecord → BlockRecord) (s : State) : (modifyRecord f s).litTab = s.litTab := rfl
@[simp] theorem modifyRecord_distTab (f : BlockRecord → BlockRecord) (s : State) : (modifyRecord f s).distTab = s.distTab := rfl
@[simp] theorem modifyRecord_inMem (f : BlockRecord → BlockRecord) (s : State) : (modifyRecord f s).inMem = s.inMem := rfl
@[simp] theorem modifyRecord_out (f : BlockRecord → BlockRecord) (s : State) : (modifyRecord f s).out = s.out := rfl
@[simp] theorem modifyRecord_trace (f : BlockRecord → BlockRecord) (s : State) : (modifyRecord f s).trace = s.trace.modify (s.blkCount - 1) f := rfl
@[simp] theorem modifyRecord_params (f : BlockRecord → BlockRecord) (s : State) : (modifyRecord f s).params = s.params := rfl
@[simp] theorem modifyRecord_host (f : BlockRecord → BlockRecord) (s : State) : (modifyRecord f s).host = s.host := rfl

/-! ### `closeRecord` -/

@[simp] theorem closeRecord_st (p : Bool) (s : State) : (closeRecord p s).st = s.st := rfl
@[simp] theorem closeRecord_curByte (p : Bool) (s : State) : (closeRecord p s).curByte = s.curByte := rfl
@[simp] theorem closeRecord_curBit (p : Bool) (s : State) : (closeRecord p s).curBit = s.curBit := rfl
@[simp] theorem closeRecord_inLen (p : Bool) (s : State) : (closeRecord p s).inLen = s.inLen := rfl
@[simp] theorem closeRecord_bfinal (p : Bool) (s : State) : (closeRecord p s).bfinal = s.bfinal := rfl
@[simp] theorem closeRecord_btype (p : Bool) (s : State) : (closeRecord p s).btype = s.btype := rfl
@[simp] theorem closeRecord_tsel (p : Bool) (s : State) : (closeRecord p s).tsel = s.tsel := rfl
@[simp] theorem closeRecord_hlit (p : Bool) (s : State) : (closeRecord p s).hlit = s.hlit := rfl
@[simp] theorem closeRecord_hdist (p : Bool) (s : State) : (closeRecord p s).hdist = s.hdist := rfl
@[simp] theorem closeRecord_hclen (p : Bool) (s : State) : (closeRecord p s).hclen = s.hclen := rfl
@[simp] theorem closeRecord_lcnt (p : Bool) (s : State) : (closeRecord p s).lcnt = s.lcnt := rfl
@[simp] theorem closeRecord_slen (p : Bool) (s : State) : (closeRecord p s).slen = s.slen := rfl
@[simp] theorem closeRecord_snlen (p : Bool) (s : State) : (closeRecord p s).snlen = s.snlen := rfl
@[simp] theorem closeRecord_srem (p : Bool) (s : State) : (closeRecord p s).srem = s.srem := rfl
@[simp] theorem closeRecord_outLen (p : Bool) (s : State) : (closeRecord p s).outLen = s.outLen := rfl
@[simp] theorem closeRecord_blkCount (p : Bool) (s : State) : (closeRecord p s).blkCount = s.blkCount := rfl
@[simp] theorem closeRecord_blkOpen (p : Bool) (s : State) : (closeRecord p s).blkOpen = false := rfl
@[simp] theorem closeRecord_blkStart (p : Bool) (s : State) : (closeRecord p s).blkStart = s.blkStart := rfl
@[simp] theorem closeRecord_blkOutStart (p : Bool) (s : State) : (closeRecord p s).blkOutStart = s.blkOutStart := rfl
@[simp] theorem closeRecord_zcmf (p : Bool) (s : State) : (closeRecord p s).zcmf = s.zcmf := rfl
@[simp] theorem closeRecord_zflg (p : Bool) (s : State) : (closeRecord p s).zflg = s.zflg := rfl
@[simp] theorem closeRecord_adler (p : Bool) (s : State) : (closeRecord p s).adler = s.adler := rfl
@[simp] theorem closeRecord_hdrValid (p : Bool) (s : State) : (closeRecord p s).hdrValid = s.hdrValid := rfl
@[simp] theorem closeRecord_trlValid (p : Bool) (s : State) : (closeRecord p s).trlValid = s.trlValid := rfl
@[simp] theorem closeRecord_errCode (p : Bool) (s : State) : (closeRecord p s).errCode = s.errCode := rfl
@[simp] theorem closeRecord_errPos (p : Bool) (s : State) : (closeRecord p s).errPos = s.errPos := rfl
@[simp] theorem closeRecord_errBlk (p : Bool) (s : State) : (closeRecord p s).errBlk = s.errBlk := rfl
@[simp] theorem closeRecord_cll (p : Bool) (s : State) : (closeRecord p s).cll = s.cll := rfl
@[simp] theorem closeRecord_lens (p : Bool) (s : State) : (closeRecord p s).lens = s.lens := rfl
@[simp] theorem closeRecord_clTab (p : Bool) (s : State) : (closeRecord p s).clTab = s.clTab := rfl
@[simp] theorem closeRecord_litTab (p : Bool) (s : State) : (closeRecord p s).litTab = s.litTab := rfl
@[simp] theorem closeRecord_distTab (p : Bool) (s : State) : (closeRecord p s).distTab = s.distTab := rfl
@[simp] theorem closeRecord_inMem (p : Bool) (s : State) : (closeRecord p s).inMem = s.inMem := rfl
@[simp] theorem closeRecord_out (p : Bool) (s : State) : (closeRecord p s).out = s.out := rfl
@[simp] theorem closeRecord_params (p : Bool) (s : State) : (closeRecord p s).params = s.params := rfl
@[simp] theorem closeRecord_host (p : Bool) (s : State) : (closeRecord p s).host = s.host := rfl

/-! ### `raise` -/

@[simp] theorem raise_st (e : ErrorCode) (s : State) : (raise e s).st = .error := rfl
@[simp] theorem raise_curByte (e : ErrorCode) (s : State) : (raise e s).curByte = s.curByte := by unfold raise; split <;> rfl
@[simp] theorem raise_curBit (e : ErrorCode) (s : State) : (raise e s).curBit = s.curBit := by unfold raise; split <;> rfl
@[simp] theorem raise_inLen (e : ErrorCode) (s : State) : (raise e s).inLen = s.inLen := by unfold raise; split <;> rfl
@[simp] theorem raise_bfinal (e : ErrorCode) (s : State) : (raise e s).bfinal = s.bfinal := by unfold raise; split <;> rfl
@[simp] theorem raise_btype (e : ErrorCode) (s : State) : (raise e s).btype = s.btype := by unfold raise; split <;> rfl
@[simp] theorem raise_tsel (e : ErrorCode) (s : State) : (raise e s).tsel = s.tsel := by unfold raise; split <;> rfl
@[simp] theorem raise_hlit (e : ErrorCode) (s : State) : (raise e s).hlit = s.hlit := by unfold raise; split <;> rfl
@[simp] theorem raise_hdist (e : ErrorCode) (s : State) : (raise e s).hdist = s.hdist := by unfold raise; split <;> rfl
@[simp] theorem raise_hclen (e : ErrorCode) (s : State) : (raise e s).hclen = s.hclen := by unfold raise; split <;> rfl
@[simp] theorem raise_lcnt (e : ErrorCode) (s : State) : (raise e s).lcnt = s.lcnt := by unfold raise; split <;> rfl
@[simp] theorem raise_slen (e : ErrorCode) (s : State) : (raise e s).slen = s.slen := by unfold raise; split <;> rfl
@[simp] theorem raise_snlen (e : ErrorCode) (s : State) : (raise e s).snlen = s.snlen := by unfold raise; split <;> rfl
@[simp] theorem raise_srem (e : ErrorCode) (s : State) : (raise e s).srem = s.srem := by unfold raise; split <;> rfl
@[simp] theorem raise_outLen (e : ErrorCode) (s : State) : (raise e s).outLen = s.outLen := by unfold raise; split <;> rfl
@[simp] theorem raise_blkCount (e : ErrorCode) (s : State) : (raise e s).blkCount = s.blkCount := by unfold raise; split <;> rfl
@[simp] theorem raise_blkOpen (e : ErrorCode) (s : State) : (raise e s).blkOpen = false := by unfold raise; split <;> simp_all
@[simp] theorem raise_blkStart (e : ErrorCode) (s : State) : (raise e s).blkStart = s.blkStart := by unfold raise; split <;> rfl
@[simp] theorem raise_blkOutStart (e : ErrorCode) (s : State) : (raise e s).blkOutStart = s.blkOutStart := by unfold raise; split <;> rfl
@[simp] theorem raise_zcmf (e : ErrorCode) (s : State) : (raise e s).zcmf = s.zcmf := by unfold raise; split <;> rfl
@[simp] theorem raise_zflg (e : ErrorCode) (s : State) : (raise e s).zflg = s.zflg := by unfold raise; split <;> rfl
@[simp] theorem raise_adler (e : ErrorCode) (s : State) : (raise e s).adler = s.adler := by unfold raise; split <;> rfl
@[simp] theorem raise_hdrValid (e : ErrorCode) (s : State) : (raise e s).hdrValid = s.hdrValid := by unfold raise; split <;> rfl
@[simp] theorem raise_trlValid (e : ErrorCode) (s : State) : (raise e s).trlValid = s.trlValid := by unfold raise; split <;> rfl
@[simp] theorem raise_errCode (e : ErrorCode) (s : State) : (raise e s).errCode = e := by unfold raise; split <;> rfl
@[simp] theorem raise_errPos (e : ErrorCode) (s : State) : (raise e s).errPos = bitOffset s := by unfold raise; split <;> rfl
@[simp] theorem raise_errBlk (e : ErrorCode) (s : State) : (raise e s).errBlk = if s.blkOpen then s.blkCount - 1 else s.blkCount := by unfold raise; split <;> rfl
@[simp] theorem raise_cll (e : ErrorCode) (s : State) : (raise e s).cll = s.cll := by unfold raise; split <;> rfl
@[simp] theorem raise_lens (e : ErrorCode) (s : State) : (raise e s).lens = s.lens := by unfold raise; split <;> rfl
@[simp] theorem raise_clTab (e : ErrorCode) (s : State) : (raise e s).clTab = s.clTab := by unfold raise; split <;> rfl
@[simp] theorem raise_litTab (e : ErrorCode) (s : State) : (raise e s).litTab = s.litTab := by unfold raise; split <;> rfl
@[simp] theorem raise_distTab (e : ErrorCode) (s : State) : (raise e s).distTab = s.distTab := by unfold raise; split <;> rfl
@[simp] theorem raise_inMem (e : ErrorCode) (s : State) : (raise e s).inMem = s.inMem := by unfold raise; split <;> rfl
@[simp] theorem raise_out (e : ErrorCode) (s : State) : (raise e s).out = s.out := by unfold raise; split <;> rfl
@[simp] theorem raise_params (e : ErrorCode) (s : State) : (raise e s).params = s.params := by unfold raise; split <;> rfl
@[simp] theorem raise_host (e : ErrorCode) (s : State) : (raise e s).host = s.host := by unfold raise; split <;> rfl

/-! ### `keepPartial` -/

@[simp] theorem keepPartial_st (p : PartialRead) (s : State) : (keepPartial p s).st = s.st := by cases p <;> rfl
@[simp] theorem keepPartial_curByte (p : PartialRead) (s : State) : (keepPartial p s).curByte = s.curByte := by cases p <;> rfl
@[simp] theorem keepPartial_curBit (p : PartialRead) (s : State) : (keepPartial p s).curBit = s.curBit := by cases p <;> rfl
@[simp] theorem keepPartial_inLen (p : PartialRead) (s : State) : (keepPartial p s).inLen = s.inLen := by cases p <;> rfl
@[simp] theorem keepPartial_btype (p : PartialRead) (s : State) : (keepPartial p s).btype = s.btype := by cases p <;> rfl
@[simp] theorem keepPartial_tsel (p : PartialRead) (s : State) : (keepPartial p s).tsel = s.tsel := by cases p <;> rfl
@[simp] theorem keepPartial_lcnt (p : PartialRead) (s : State) : (keepPartial p s).lcnt = s.lcnt := by cases p <;> rfl
@[simp] theorem keepPartial_snlen (p : PartialRead) (s : State) : (keepPartial p s).snlen = s.snlen := by cases p <;> rfl
@[simp] theorem keepPartial_srem (p : PartialRead) (s : State) : (keepPartial p s).srem = s.srem := by cases p <;> rfl
@[simp] theorem keepPartial_outLen (p : PartialRead) (s : State) : (keepPartial p s).outLen = s.outLen := by cases p <;> rfl
@[simp] theorem keepPartial_blkCount (p : PartialRead) (s : State) : (keepPartial p s).blkCount = s.blkCount := by cases p <;> rfl
@[simp] theorem keepPartial_blkOpen (p : PartialRead) (s : State) : (keepPartial p s).blkOpen = s.blkOpen := by cases p <;> rfl
@[simp] theorem keepPartial_blkStart (p : PartialRead) (s : State) : (keepPartial p s).blkStart = s.blkStart := by cases p <;> rfl
@[simp] theorem keepPartial_blkOutStart (p : PartialRead) (s : State) : (keepPartial p s).blkOutStart = s.blkOutStart := by cases p <;> rfl
@[simp] theorem keepPartial_zcmf (p : PartialRead) (s : State) : (keepPartial p s).zcmf = s.zcmf := by cases p <;> rfl
@[simp] theorem keepPartial_zflg (p : PartialRead) (s : State) : (keepPartial p s).zflg = s.zflg := by cases p <;> rfl
@[simp] theorem keepPartial_adler (p : PartialRead) (s : State) : (keepPartial p s).adler = s.adler := by cases p <;> rfl
@[simp] theorem keepPartial_hdrValid (p : PartialRead) (s : State) : (keepPartial p s).hdrValid = s.hdrValid := by cases p <;> rfl
@[simp] theorem keepPartial_trlValid (p : PartialRead) (s : State) : (keepPartial p s).trlValid = s.trlValid := by cases p <;> rfl
@[simp] theorem keepPartial_errCode (p : PartialRead) (s : State) : (keepPartial p s).errCode = s.errCode := by cases p <;> rfl
@[simp] theorem keepPartial_errPos (p : PartialRead) (s : State) : (keepPartial p s).errPos = s.errPos := by cases p <;> rfl
@[simp] theorem keepPartial_errBlk (p : PartialRead) (s : State) : (keepPartial p s).errBlk = s.errBlk := by cases p <;> rfl
@[simp] theorem keepPartial_lens (p : PartialRead) (s : State) : (keepPartial p s).lens = s.lens := by cases p <;> rfl
@[simp] theorem keepPartial_clTab (p : PartialRead) (s : State) : (keepPartial p s).clTab = s.clTab := by cases p <;> rfl
@[simp] theorem keepPartial_litTab (p : PartialRead) (s : State) : (keepPartial p s).litTab = s.litTab := by cases p <;> rfl
@[simp] theorem keepPartial_distTab (p : PartialRead) (s : State) : (keepPartial p s).distTab = s.distTab := by cases p <;> rfl
@[simp] theorem keepPartial_inMem (p : PartialRead) (s : State) : (keepPartial p s).inMem = s.inMem := by cases p <;> rfl
@[simp] theorem keepPartial_out (p : PartialRead) (s : State) : (keepPartial p s).out = s.out := by cases p <;> rfl
@[simp] theorem keepPartial_trace (p : PartialRead) (s : State) : (keepPartial p s).trace = s.trace := by cases p <;> rfl
@[simp] theorem keepPartial_params (p : PartialRead) (s : State) : (keepPartial p s).params = s.params := by cases p <;> rfl
@[simp] theorem keepPartial_host (p : PartialRead) (s : State) : (keepPartial p s).host = s.host := by cases p <;> rfl

/-! ### `readBhdr` -/

@[simp] theorem readBhdr_st (f : Bool) (b : BitVec 2) (s : State) : (readBhdr f b s).st = s.st := rfl
@[simp] theorem readBhdr_inLen (f : Bool) (b : BitVec 2) (s : State) : (readBhdr f b s).inLen = s.inLen := rfl
@[simp] theorem readBhdr_bfinal (f : Bool) (b : BitVec 2) (s : State) : (readBhdr f b s).bfinal = f := rfl
@[simp] theorem readBhdr_btype (f : Bool) (b : BitVec 2) (s : State) : (readBhdr f b s).btype = b := rfl
@[simp] theorem readBhdr_tsel (f : Bool) (b : BitVec 2) (s : State) : (readBhdr f b s).tsel = s.tsel := rfl
@[simp] theorem readBhdr_hlit (f : Bool) (b : BitVec 2) (s : State) : (readBhdr f b s).hlit = s.hlit := rfl
@[simp] theorem readBhdr_hdist (f : Bool) (b : BitVec 2) (s : State) : (readBhdr f b s).hdist = s.hdist := rfl
@[simp] theorem readBhdr_hclen (f : Bool) (b : BitVec 2) (s : State) : (readBhdr f b s).hclen = s.hclen := rfl
@[simp] theorem readBhdr_lcnt (f : Bool) (b : BitVec 2) (s : State) : (readBhdr f b s).lcnt = s.lcnt := rfl
@[simp] theorem readBhdr_slen (f : Bool) (b : BitVec 2) (s : State) : (readBhdr f b s).slen = s.slen := rfl
@[simp] theorem readBhdr_snlen (f : Bool) (b : BitVec 2) (s : State) : (readBhdr f b s).snlen = s.snlen := rfl
@[simp] theorem readBhdr_srem (f : Bool) (b : BitVec 2) (s : State) : (readBhdr f b s).srem = s.srem := rfl
@[simp] theorem readBhdr_outLen (f : Bool) (b : BitVec 2) (s : State) : (readBhdr f b s).outLen = s.outLen := rfl
@[simp] theorem readBhdr_blkCount (f : Bool) (b : BitVec 2) (s : State) : (readBhdr f b s).blkCount = s.blkCount := rfl
@[simp] theorem readBhdr_blkOpen (f : Bool) (b : BitVec 2) (s : State) : (readBhdr f b s).blkOpen = s.blkOpen := rfl
@[simp] theorem readBhdr_blkStart (f : Bool) (b : BitVec 2) (s : State) : (readBhdr f b s).blkStart = s.blkStart := rfl
@[simp] theorem readBhdr_blkOutStart (f : Bool) (b : BitVec 2) (s : State) : (readBhdr f b s).blkOutStart = s.blkOutStart := rfl
@[simp] theorem readBhdr_zcmf (f : Bool) (b : BitVec 2) (s : State) : (readBhdr f b s).zcmf = s.zcmf := rfl
@[simp] theorem readBhdr_zflg (f : Bool) (b : BitVec 2) (s : State) : (readBhdr f b s).zflg = s.zflg := rfl
@[simp] theorem readBhdr_adler (f : Bool) (b : BitVec 2) (s : State) : (readBhdr f b s).adler = s.adler := rfl
@[simp] theorem readBhdr_hdrValid (f : Bool) (b : BitVec 2) (s : State) : (readBhdr f b s).hdrValid = s.hdrValid := rfl
@[simp] theorem readBhdr_trlValid (f : Bool) (b : BitVec 2) (s : State) : (readBhdr f b s).trlValid = s.trlValid := rfl
@[simp] theorem readBhdr_errCode (f : Bool) (b : BitVec 2) (s : State) : (readBhdr f b s).errCode = s.errCode := rfl
@[simp] theorem readBhdr_errPos (f : Bool) (b : BitVec 2) (s : State) : (readBhdr f b s).errPos = s.errPos := rfl
@[simp] theorem readBhdr_errBlk (f : Bool) (b : BitVec 2) (s : State) : (readBhdr f b s).errBlk = s.errBlk := rfl
@[simp] theorem readBhdr_cll (f : Bool) (b : BitVec 2) (s : State) : (readBhdr f b s).cll = s.cll := rfl
@[simp] theorem readBhdr_lens (f : Bool) (b : BitVec 2) (s : State) : (readBhdr f b s).lens = s.lens := rfl
@[simp] theorem readBhdr_clTab (f : Bool) (b : BitVec 2) (s : State) : (readBhdr f b s).clTab = s.clTab := rfl
@[simp] theorem readBhdr_litTab (f : Bool) (b : BitVec 2) (s : State) : (readBhdr f b s).litTab = s.litTab := rfl
@[simp] theorem readBhdr_distTab (f : Bool) (b : BitVec 2) (s : State) : (readBhdr f b s).distTab = s.distTab := rfl
@[simp] theorem readBhdr_inMem (f : Bool) (b : BitVec 2) (s : State) : (readBhdr f b s).inMem = s.inMem := rfl
@[simp] theorem readBhdr_out (f : Bool) (b : BitVec 2) (s : State) : (readBhdr f b s).out = s.out := rfl
@[simp] theorem readBhdr_trace (f : Bool) (b : BitVec 2) (s : State) : (readBhdr f b s).trace = s.trace := rfl
@[simp] theorem readBhdr_params (f : Bool) (b : BitVec 2) (s : State) : (readBhdr f b s).params = s.params := rfl
@[simp] theorem readBhdr_host (f : Bool) (b : BitVec 2) (s : State) : (readBhdr f b s).host = s.host := rfl

/-! ### `writeCounts` -/

@[simp] theorem writeCounts_st (h d : BitVec 5) (c : BitVec 4) (s : State) : (writeCounts h d c s).st = s.st := rfl
@[simp] theorem writeCounts_curByte (h d : BitVec 5) (c : BitVec 4) (s : State) : (writeCounts h d c s).curByte = s.curByte := rfl
@[simp] theorem writeCounts_curBit (h d : BitVec 5) (c : BitVec 4) (s : State) : (writeCounts h d c s).curBit = s.curBit := rfl
@[simp] theorem writeCounts_inLen (h d : BitVec 5) (c : BitVec 4) (s : State) : (writeCounts h d c s).inLen = s.inLen := rfl
@[simp] theorem writeCounts_bfinal (h d : BitVec 5) (c : BitVec 4) (s : State) : (writeCounts h d c s).bfinal = s.bfinal := rfl
@[simp] theorem writeCounts_btype (h d : BitVec 5) (c : BitVec 4) (s : State) : (writeCounts h d c s).btype = s.btype := rfl
@[simp] theorem writeCounts_tsel (h d : BitVec 5) (c : BitVec 4) (s : State) : (writeCounts h d c s).tsel = s.tsel := rfl
@[simp] theorem writeCounts_hlit (h d : BitVec 5) (c : BitVec 4) (s : State) : (writeCounts h d c s).hlit = BitVec.ofNat 9 (hlitOf h) := rfl
@[simp] theorem writeCounts_hdist (h d : BitVec 5) (c : BitVec 4) (s : State) : (writeCounts h d c s).hdist = BitVec.ofNat 6 (hdistOf d) := rfl
@[simp] theorem writeCounts_hclen (h d : BitVec 5) (c : BitVec 4) (s : State) : (writeCounts h d c s).hclen = BitVec.ofNat 5 (hclenOf c) := rfl
@[simp] theorem writeCounts_lcnt (h d : BitVec 5) (c : BitVec 4) (s : State) : (writeCounts h d c s).lcnt = s.lcnt := rfl
@[simp] theorem writeCounts_slen (h d : BitVec 5) (c : BitVec 4) (s : State) : (writeCounts h d c s).slen = s.slen := rfl
@[simp] theorem writeCounts_snlen (h d : BitVec 5) (c : BitVec 4) (s : State) : (writeCounts h d c s).snlen = s.snlen := rfl
@[simp] theorem writeCounts_srem (h d : BitVec 5) (c : BitVec 4) (s : State) : (writeCounts h d c s).srem = s.srem := rfl
@[simp] theorem writeCounts_outLen (h d : BitVec 5) (c : BitVec 4) (s : State) : (writeCounts h d c s).outLen = s.outLen := rfl
@[simp] theorem writeCounts_blkCount (h d : BitVec 5) (c : BitVec 4) (s : State) : (writeCounts h d c s).blkCount = s.blkCount := rfl
@[simp] theorem writeCounts_blkOpen (h d : BitVec 5) (c : BitVec 4) (s : State) : (writeCounts h d c s).blkOpen = s.blkOpen := rfl
@[simp] theorem writeCounts_blkStart (h d : BitVec 5) (c : BitVec 4) (s : State) : (writeCounts h d c s).blkStart = s.blkStart := rfl
@[simp] theorem writeCounts_blkOutStart (h d : BitVec 5) (c : BitVec 4) (s : State) : (writeCounts h d c s).blkOutStart = s.blkOutStart := rfl
@[simp] theorem writeCounts_zcmf (h d : BitVec 5) (c : BitVec 4) (s : State) : (writeCounts h d c s).zcmf = s.zcmf := rfl
@[simp] theorem writeCounts_zflg (h d : BitVec 5) (c : BitVec 4) (s : State) : (writeCounts h d c s).zflg = s.zflg := rfl
@[simp] theorem writeCounts_adler (h d : BitVec 5) (c : BitVec 4) (s : State) : (writeCounts h d c s).adler = s.adler := rfl
@[simp] theorem writeCounts_hdrValid (h d : BitVec 5) (c : BitVec 4) (s : State) : (writeCounts h d c s).hdrValid = s.hdrValid := rfl
@[simp] theorem writeCounts_trlValid (h d : BitVec 5) (c : BitVec 4) (s : State) : (writeCounts h d c s).trlValid = s.trlValid := rfl
@[simp] theorem writeCounts_errCode (h d : BitVec 5) (c : BitVec 4) (s : State) : (writeCounts h d c s).errCode = s.errCode := rfl
@[simp] theorem writeCounts_errPos (h d : BitVec 5) (c : BitVec 4) (s : State) : (writeCounts h d c s).errPos = s.errPos := rfl
@[simp] theorem writeCounts_errBlk (h d : BitVec 5) (c : BitVec 4) (s : State) : (writeCounts h d c s).errBlk = s.errBlk := rfl
@[simp] theorem writeCounts_cll (h d : BitVec 5) (c : BitVec 4) (s : State) : (writeCounts h d c s).cll = s.cll := rfl
@[simp] theorem writeCounts_lens (h d : BitVec 5) (c : BitVec 4) (s : State) : (writeCounts h d c s).lens = s.lens := rfl
@[simp] theorem writeCounts_clTab (h d : BitVec 5) (c : BitVec 4) (s : State) : (writeCounts h d c s).clTab = s.clTab := rfl
@[simp] theorem writeCounts_litTab (h d : BitVec 5) (c : BitVec 4) (s : State) : (writeCounts h d c s).litTab = s.litTab := rfl
@[simp] theorem writeCounts_distTab (h d : BitVec 5) (c : BitVec 4) (s : State) : (writeCounts h d c s).distTab = s.distTab := rfl
@[simp] theorem writeCounts_inMem (h d : BitVec 5) (c : BitVec 4) (s : State) : (writeCounts h d c s).inMem = s.inMem := rfl
@[simp] theorem writeCounts_out (h d : BitVec 5) (c : BitVec 4) (s : State) : (writeCounts h d c s).out = s.out := rfl
@[simp] theorem writeCounts_trace (h d : BitVec 5) (c : BitVec 4) (s : State) : (writeCounts h d c s).trace = s.trace := rfl
@[simp] theorem writeCounts_params (h d : BitVec 5) (c : BitVec 4) (s : State) : (writeCounts h d c s).params = s.params := rfl
@[simp] theorem writeCounts_host (h d : BitVec 5) (c : BitVec 4) (s : State) : (writeCounts h d c s).host = s.host := rfl

/-! ### `lensNext` -/

@[simp] theorem lensNext_curByte (s : State) : (lensNext s).curByte = s.curByte := by unfold lensNext; split <;> rfl
@[simp] theorem lensNext_curBit (s : State) : (lensNext s).curBit = s.curBit := by unfold lensNext; split <;> rfl
@[simp] theorem lensNext_inLen (s : State) : (lensNext s).inLen = s.inLen := by unfold lensNext; split <;> rfl
@[simp] theorem lensNext_bfinal (s : State) : (lensNext s).bfinal = s.bfinal := by unfold lensNext; split <;> rfl
@[simp] theorem lensNext_btype (s : State) : (lensNext s).btype = s.btype := by unfold lensNext; split <;> rfl
@[simp] theorem lensNext_tsel (s : State) : (lensNext s).tsel = s.tsel := by unfold lensNext; split <;> rfl
@[simp] theorem lensNext_hlit (s : State) : (lensNext s).hlit = s.hlit := by unfold lensNext; split <;> rfl
@[simp] theorem lensNext_hdist (s : State) : (lensNext s).hdist = s.hdist := by unfold lensNext; split <;> rfl
@[simp] theorem lensNext_hclen (s : State) : (lensNext s).hclen = s.hclen := by unfold lensNext; split <;> rfl
@[simp] theorem lensNext_lcnt (s : State) : (lensNext s).lcnt = s.lcnt := by unfold lensNext; split <;> rfl
@[simp] theorem lensNext_slen (s : State) : (lensNext s).slen = s.slen := by unfold lensNext; split <;> rfl
@[simp] theorem lensNext_snlen (s : State) : (lensNext s).snlen = s.snlen := by unfold lensNext; split <;> rfl
@[simp] theorem lensNext_srem (s : State) : (lensNext s).srem = s.srem := by unfold lensNext; split <;> rfl
@[simp] theorem lensNext_outLen (s : State) : (lensNext s).outLen = s.outLen := by unfold lensNext; split <;> rfl
@[simp] theorem lensNext_blkCount (s : State) : (lensNext s).blkCount = s.blkCount := by unfold lensNext; split <;> rfl
@[simp] theorem lensNext_blkOpen (s : State) : (lensNext s).blkOpen = s.blkOpen := by unfold lensNext; split <;> rfl
@[simp] theorem lensNext_blkStart (s : State) : (lensNext s).blkStart = s.blkStart := by unfold lensNext; split <;> rfl
@[simp] theorem lensNext_blkOutStart (s : State) : (lensNext s).blkOutStart = s.blkOutStart := by unfold lensNext; split <;> rfl
@[simp] theorem lensNext_zcmf (s : State) : (lensNext s).zcmf = s.zcmf := by unfold lensNext; split <;> rfl
@[simp] theorem lensNext_zflg (s : State) : (lensNext s).zflg = s.zflg := by unfold lensNext; split <;> rfl
@[simp] theorem lensNext_adler (s : State) : (lensNext s).adler = s.adler := by unfold lensNext; split <;> rfl
@[simp] theorem lensNext_hdrValid (s : State) : (lensNext s).hdrValid = s.hdrValid := by unfold lensNext; split <;> rfl
@[simp] theorem lensNext_trlValid (s : State) : (lensNext s).trlValid = s.trlValid := by unfold lensNext; split <;> rfl
@[simp] theorem lensNext_errCode (s : State) : (lensNext s).errCode = s.errCode := by unfold lensNext; split <;> rfl
@[simp] theorem lensNext_errPos (s : State) : (lensNext s).errPos = s.errPos := by unfold lensNext; split <;> rfl
@[simp] theorem lensNext_errBlk (s : State) : (lensNext s).errBlk = s.errBlk := by unfold lensNext; split <;> rfl
@[simp] theorem lensNext_cll (s : State) : (lensNext s).cll = s.cll := by unfold lensNext; split <;> rfl
@[simp] theorem lensNext_lens (s : State) : (lensNext s).lens = s.lens := by unfold lensNext; split <;> rfl
@[simp] theorem lensNext_clTab (s : State) : (lensNext s).clTab = s.clTab := by unfold lensNext; split <;> rfl
@[simp] theorem lensNext_litTab (s : State) : (lensNext s).litTab = s.litTab := by unfold lensNext; split <;> rfl
@[simp] theorem lensNext_distTab (s : State) : (lensNext s).distTab = s.distTab := by unfold lensNext; split <;> rfl
@[simp] theorem lensNext_inMem (s : State) : (lensNext s).inMem = s.inMem := by unfold lensNext; split <;> rfl
@[simp] theorem lensNext_out (s : State) : (lensNext s).out = s.out := by unfold lensNext; split <;> rfl
@[simp] theorem lensNext_trace (s : State) : (lensNext s).trace = s.trace := by unfold lensNext; split <;> rfl
@[simp] theorem lensNext_params (s : State) : (lensNext s).params = s.params := by unfold lensNext; split <;> rfl
@[simp] theorem lensNext_host (s : State) : (lensNext s).host = s.host := by unfold lensNext; split <;> rfl

/-! ### `blockEnd` -/

@[simp] theorem blockEnd_st (s : State) : (blockEnd s).st = if s.bfinal then .ztrl else .bhdr := rfl
@[simp] theorem blockEnd_curByte (s : State) : (blockEnd s).curByte = s.curByte := rfl
@[simp] theorem blockEnd_curBit (s : State) : (blockEnd s).curBit = s.curBit := rfl
@[simp] theorem blockEnd_inLen (s : State) : (blockEnd s).inLen = s.inLen := rfl
@[simp] theorem blockEnd_bfinal (s : State) : (blockEnd s).bfinal = s.bfinal := rfl
@[simp] theorem blockEnd_btype (s : State) : (blockEnd s).btype = s.btype := rfl
@[simp] theorem blockEnd_tsel (s : State) : (blockEnd s).tsel = s.tsel := rfl
@[simp] theorem blockEnd_hlit (s : State) : (blockEnd s).hlit = s.hlit := rfl
@[simp] theorem blockEnd_hdist (s : State) : (blockEnd s).hdist = s.hdist := rfl
@[simp] theorem blockEnd_hclen (s : State) : (blockEnd s).hclen = s.hclen := rfl
@[simp] theorem blockEnd_lcnt (s : State) : (blockEnd s).lcnt = s.lcnt := rfl
@[simp] theorem blockEnd_slen (s : State) : (blockEnd s).slen = s.slen := rfl
@[simp] theorem blockEnd_snlen (s : State) : (blockEnd s).snlen = s.snlen := rfl
@[simp] theorem blockEnd_srem (s : State) : (blockEnd s).srem = s.srem := rfl
@[simp] theorem blockEnd_outLen (s : State) : (blockEnd s).outLen = s.outLen := rfl
@[simp] theorem blockEnd_blkCount (s : State) : (blockEnd s).blkCount = s.blkCount := rfl
@[simp] theorem blockEnd_blkOpen (s : State) : (blockEnd s).blkOpen = false := rfl
@[simp] theorem blockEnd_blkStart (s : State) : (blockEnd s).blkStart = s.blkStart := rfl
@[simp] theorem blockEnd_blkOutStart (s : State) : (blockEnd s).blkOutStart = s.blkOutStart := rfl
@[simp] theorem blockEnd_zcmf (s : State) : (blockEnd s).zcmf = s.zcmf := rfl
@[simp] theorem blockEnd_zflg (s : State) : (blockEnd s).zflg = s.zflg := rfl
@[simp] theorem blockEnd_adler (s : State) : (blockEnd s).adler = s.adler := rfl
@[simp] theorem blockEnd_hdrValid (s : State) : (blockEnd s).hdrValid = s.hdrValid := rfl
@[simp] theorem blockEnd_trlValid (s : State) : (blockEnd s).trlValid = s.trlValid := rfl
@[simp] theorem blockEnd_errCode (s : State) : (blockEnd s).errCode = s.errCode := rfl
@[simp] theorem blockEnd_errPos (s : State) : (blockEnd s).errPos = s.errPos := rfl
@[simp] theorem blockEnd_errBlk (s : State) : (blockEnd s).errBlk = s.errBlk := rfl
@[simp] theorem blockEnd_cll (s : State) : (blockEnd s).cll = s.cll := rfl
@[simp] theorem blockEnd_lens (s : State) : (blockEnd s).lens = s.lens := rfl
@[simp] theorem blockEnd_clTab (s : State) : (blockEnd s).clTab = s.clTab := rfl
@[simp] theorem blockEnd_litTab (s : State) : (blockEnd s).litTab = s.litTab := rfl
@[simp] theorem blockEnd_distTab (s : State) : (blockEnd s).distTab = s.distTab := rfl
@[simp] theorem blockEnd_inMem (s : State) : (blockEnd s).inMem = s.inMem := rfl
@[simp] theorem blockEnd_out (s : State) : (blockEnd s).out = s.out := rfl
@[simp] theorem blockEnd_params (s : State) : (blockEnd s).params = s.params := rfl
@[simp] theorem blockEnd_host (s : State) : (blockEnd s).host = s.host := rfl

/-! ### `State.reset` -/

@[simp] theorem reset_st : State.reset.st = .idle := rfl
@[simp] theorem reset_curByte : State.reset.curByte = 0 := rfl
@[simp] theorem reset_curBit : State.reset.curBit = 0 := rfl
@[simp] theorem reset_inLen : State.reset.inLen = 0 := rfl
@[simp] theorem reset_bfinal : State.reset.bfinal = false := rfl
@[simp] theorem reset_btype : State.reset.btype = 0 := rfl
@[simp] theorem reset_tsel : State.reset.tsel = .fixed := rfl
@[simp] theorem reset_hlit : State.reset.hlit = 0 := rfl
@[simp] theorem reset_hdist : State.reset.hdist = 0 := rfl
@[simp] theorem reset_hclen : State.reset.hclen = 0 := rfl
@[simp] theorem reset_lcnt : State.reset.lcnt = 0 := rfl
@[simp] theorem reset_slen : State.reset.slen = 0 := rfl
@[simp] theorem reset_snlen : State.reset.snlen = 0 := rfl
@[simp] theorem reset_srem : State.reset.srem = 0 := rfl
@[simp] theorem reset_outLen : State.reset.outLen = 0 := rfl
@[simp] theorem reset_blkCount : State.reset.blkCount = 0 := rfl
@[simp] theorem reset_blkOpen : State.reset.blkOpen = false := rfl
@[simp] theorem reset_blkStart : State.reset.blkStart = 0 := rfl
@[simp] theorem reset_blkOutStart : State.reset.blkOutStart = 0 := rfl
@[simp] theorem reset_zcmf : State.reset.zcmf = 0 := rfl
@[simp] theorem reset_zflg : State.reset.zflg = 0 := rfl
@[simp] theorem reset_adler : State.reset.adler = 0 := rfl
@[simp] theorem reset_hdrValid : State.reset.hdrValid = false := rfl
@[simp] theorem reset_trlValid : State.reset.trlValid = false := rfl
@[simp] theorem reset_errCode : State.reset.errCode = .none := rfl
@[simp] theorem reset_errPos : State.reset.errPos = 0 := rfl
@[simp] theorem reset_errBlk : State.reset.errBlk = 0 := rfl
@[simp] theorem reset_cll : State.reset.cll = List.replicate 19 0 := rfl
@[simp] theorem reset_lens : State.reset.lens = List.replicate 320 0 := rfl
@[simp] theorem reset_clTab : State.reset.clTab = [] := rfl
@[simp] theorem reset_litTab : State.reset.litTab = [] := rfl
@[simp] theorem reset_distTab : State.reset.distTab = [] := rfl
@[simp] theorem reset_inMem : State.reset.inMem = [] := rfl
@[simp] theorem reset_out : State.reset.out = [] := rfl
@[simp] theorem reset_trace : State.reset.trace = [] := rfl
@[simp] theorem reset_params : State.reset.params = Params.reference := rfl
@[simp] theorem reset_host : State.reset.host = [] := rfl

/-! ### `hostReset` -/

@[simp] theorem hostReset_st (s : State) : (hostReset s).st = .idle := rfl
@[simp] theorem hostReset_curByte (s : State) : (hostReset s).curByte = 0 := rfl
@[simp] theorem hostReset_curBit (s : State) : (hostReset s).curBit = 0 := rfl
@[simp] theorem hostReset_inLen (s : State) : (hostReset s).inLen = 0 := rfl
@[simp] theorem hostReset_bfinal (s : State) : (hostReset s).bfinal = false := rfl
@[simp] theorem hostReset_btype (s : State) : (hostReset s).btype = 0 := rfl
@[simp] theorem hostReset_tsel (s : State) : (hostReset s).tsel = .fixed := rfl
@[simp] theorem hostReset_hlit (s : State) : (hostReset s).hlit = 0 := rfl
@[simp] theorem hostReset_hdist (s : State) : (hostReset s).hdist = 0 := rfl
@[simp] theorem hostReset_hclen (s : State) : (hostReset s).hclen = 0 := rfl
@[simp] theorem hostReset_lcnt (s : State) : (hostReset s).lcnt = 0 := rfl
@[simp] theorem hostReset_slen (s : State) : (hostReset s).slen = 0 := rfl
@[simp] theorem hostReset_snlen (s : State) : (hostReset s).snlen = 0 := rfl
@[simp] theorem hostReset_srem (s : State) : (hostReset s).srem = 0 := rfl
@[simp] theorem hostReset_outLen (s : State) : (hostReset s).outLen = 0 := rfl
@[simp] theorem hostReset_blkCount (s : State) : (hostReset s).blkCount = 0 := rfl
@[simp] theorem hostReset_blkOpen (s : State) : (hostReset s).blkOpen = false := rfl
@[simp] theorem hostReset_blkStart (s : State) : (hostReset s).blkStart = 0 := rfl
@[simp] theorem hostReset_blkOutStart (s : State) : (hostReset s).blkOutStart = 0 := rfl
@[simp] theorem hostReset_zcmf (s : State) : (hostReset s).zcmf = 0 := rfl
@[simp] theorem hostReset_zflg (s : State) : (hostReset s).zflg = 0 := rfl
@[simp] theorem hostReset_adler (s : State) : (hostReset s).adler = 0 := rfl
@[simp] theorem hostReset_hdrValid (s : State) : (hostReset s).hdrValid = false := rfl
@[simp] theorem hostReset_trlValid (s : State) : (hostReset s).trlValid = false := rfl
@[simp] theorem hostReset_errCode (s : State) : (hostReset s).errCode = .none := rfl
@[simp] theorem hostReset_errPos (s : State) : (hostReset s).errPos = 0 := rfl
@[simp] theorem hostReset_errBlk (s : State) : (hostReset s).errBlk = 0 := rfl
@[simp] theorem hostReset_cll (s : State) : (hostReset s).cll = List.replicate 19 0 := rfl
@[simp] theorem hostReset_lens (s : State) : (hostReset s).lens = List.replicate 320 0 := rfl
@[simp] theorem hostReset_clTab (s : State) : (hostReset s).clTab = [] := rfl
@[simp] theorem hostReset_litTab (s : State) : (hostReset s).litTab = [] := rfl
@[simp] theorem hostReset_distTab (s : State) : (hostReset s).distTab = [] := rfl
@[simp] theorem hostReset_inMem (s : State) : (hostReset s).inMem = s.inMem := rfl
@[simp] theorem hostReset_out (s : State) : (hostReset s).out = [] := rfl
@[simp] theorem hostReset_trace (s : State) : (hostReset s).trace = [] := rfl
@[simp] theorem hostReset_params (s : State) : (hostReset s).params = s.params := rfl
@[simp] theorem hostReset_host (s : State) : (hostReset s).host = s.host := rfl

/-! ### `startDecode` -/

@[simp] theorem startDecode_st (s : State) : (startDecode s).st = if s.inLen > 0 then .zhdr else .done := rfl
@[simp] theorem startDecode_curByte (s : State) : (startDecode s).curByte = 0 := rfl
@[simp] theorem startDecode_curBit (s : State) : (startDecode s).curBit = 0 := rfl
@[simp] theorem startDecode_inLen (s : State) : (startDecode s).inLen = s.inLen := rfl
@[simp] theorem startDecode_bfinal (s : State) : (startDecode s).bfinal = false := rfl
@[simp] theorem startDecode_btype (s : State) : (startDecode s).btype = 0 := rfl
@[simp] theorem startDecode_tsel (s : State) : (startDecode s).tsel = .fixed := rfl
@[simp] theorem startDecode_hlit (s : State) : (startDecode s).hlit = 0 := rfl
@[simp] theorem startDecode_hdist (s : State) : (startDecode s).hdist = 0 := rfl
@[simp] theorem startDecode_hclen (s : State) : (startDecode s).hclen = 0 := rfl
@[simp] theorem startDecode_lcnt (s : State) : (startDecode s).lcnt = 0 := rfl
@[simp] theorem startDecode_slen (s : State) : (startDecode s).slen = 0 := rfl
@[simp] theorem startDecode_snlen (s : State) : (startDecode s).snlen = 0 := rfl
@[simp] theorem startDecode_srem (s : State) : (startDecode s).srem = 0 := rfl
@[simp] theorem startDecode_outLen (s : State) : (startDecode s).outLen = 0 := rfl
@[simp] theorem startDecode_blkCount (s : State) : (startDecode s).blkCount = 0 := rfl
@[simp] theorem startDecode_blkOpen (s : State) : (startDecode s).blkOpen = false := rfl
@[simp] theorem startDecode_blkStart (s : State) : (startDecode s).blkStart = 0 := rfl
@[simp] theorem startDecode_blkOutStart (s : State) : (startDecode s).blkOutStart = 0 := rfl
@[simp] theorem startDecode_zcmf (s : State) : (startDecode s).zcmf = 0 := rfl
@[simp] theorem startDecode_zflg (s : State) : (startDecode s).zflg = 0 := rfl
@[simp] theorem startDecode_adler (s : State) : (startDecode s).adler = 0 := rfl
@[simp] theorem startDecode_hdrValid (s : State) : (startDecode s).hdrValid = false := rfl
@[simp] theorem startDecode_trlValid (s : State) : (startDecode s).trlValid = false := rfl
@[simp] theorem startDecode_errCode (s : State) : (startDecode s).errCode = .none := rfl
@[simp] theorem startDecode_errPos (s : State) : (startDecode s).errPos = 0 := rfl
@[simp] theorem startDecode_errBlk (s : State) : (startDecode s).errBlk = 0 := rfl
@[simp] theorem startDecode_cll (s : State) : (startDecode s).cll = List.replicate 19 0 := rfl
@[simp] theorem startDecode_lens (s : State) : (startDecode s).lens = s.lens := rfl
@[simp] theorem startDecode_clTab (s : State) : (startDecode s).clTab = [] := rfl
@[simp] theorem startDecode_litTab (s : State) : (startDecode s).litTab = [] := rfl
@[simp] theorem startDecode_distTab (s : State) : (startDecode s).distTab = [] := rfl
@[simp] theorem startDecode_inMem (s : State) : (startDecode s).inMem = s.inMem := rfl
@[simp] theorem startDecode_out (s : State) : (startDecode s).out = [] := rfl
@[simp] theorem startDecode_trace (s : State) : (startDecode s).trace = [] := rfl
@[simp] theorem startDecode_params (s : State) : (startDecode s).params = s.params := rfl
@[simp] theorem startDecode_host (s : State) : (startDecode s).host = s.host := rfl

end Sys2Proof.Machine
end

