-- ==== Sys2Proof/Laws/Ops.lean ====
section
/-! SUPPORT. For each shared operation, once, everything it can do when it answers a next state. -/

namespace Sys2Proof.Machine

/-! ## The cursor -/

theorem bitOffset_congr {s t : State} (h : t.curByte = s.curByte) (h' : t.curBit = s.curBit) :
    bitOffset t = bitOffset s := by simp [bitOffset, h, h']

@[simp] theorem bitOffset_setCursor (k : Nat) (s : State) : bitOffset (setCursor k s) = k := by
  simp only [bitOffset, setCursor, BitVec.toNat_ofNat]
  omega

@[simp] theorem bitOffset_advance (n : Nat) (s : State) : bitOffset (advance n s) = bitOffset s + n := by
  simp [advance]

/-- Aligning moves the cursor past the pad. -/
@[simp] theorem bitOffset_alignToByte (s : State) : bitOffset (alignToByte s) = bitOffset s + padLen s := by
  have h : s.curBit.toNat < 8 := s.curBit.isLt
  have h0 : (0 : BitVec 3).toNat = 0 := rfl
  unfold alignToByte padLen
  split
  · have h1 : s.curBit.toNat = 0 := BitVec.toNat_inj.mpr ‹_›
    simp only [bitOffset]
    omega
  · have h1 : s.curBit.toNat ≠ 0 := fun h1 => ‹¬ _› (BitVec.eq_of_toNat_eq h1)
    simp only [bitOffset]
    omega

@[simp] theorem bitOffset_skipBytes (n : Nat) (s : State) :
    bitOffset (skipBytes n s) = bitOffset s + padLen s + 8 * n := by simp [skipBytes]

/-- After a byte read the cursor is byte-aligned. -/
@[simp] theorem skipBytes_curBit (n : Nat) (s : State) : (skipBytes n s).curBit = 0 := by
  show BitVec.ofNat 3 ((bitOffset (alignToByte s) + 8 * n) % 8) = 0
  rw [bitOffset_alignToByte, padLen, show (bitOffset s + (8 - bitOffset s % 8) % 8 + 8 * n) % 8 = 0 by omega]
  rfl

@[simp] theorem bitOffset_raise (e : ErrorCode) (s : State) : bitOffset (raise e s) = bitOffset s :=
  bitOffset_congr (by simp) (by simp)

@[simp] theorem bitOffset_modifyRecord (f : BlockRecord → BlockRecord) (s : State) :
    bitOffset (modifyRecord f s) = bitOffset s := rfl

@[simp] theorem bitOffset_keepPartial (p : PartialRead) (s : State) : bitOffset (keepPartial p s) = bitOffset s :=
  bitOffset_congr (by simp) (by simp)

@[simp] theorem bitOffset_lensNext (s : State) : bitOffset (lensNext s) = bitOffset s :=
  bitOffset_congr (by simp) (by simp)

@[simp] theorem bitOffset_blockEnd (s : State) : bitOffset (blockEnd s) = bitOffset s := rfl

@[simp] theorem bitOffset_readBhdr (f : Bool) (b : BitVec 2) (s : State) :
    bitOffset (readBhdr f b s) = bitOffset s + 3 := bitOffset_advance 3 s

theorem stream_length (s : State) : (stream s).length = avail s := by simp [stream]

/-! ## Going on -/

/-- Two operations answer a next state exactly when the first does and the second does from there. -/
theorem andThen_next {o : StepResult} {f : State → StepResult} {t : State} :
    andThen o f = .next t ↔ ∃ s, o = .next s ∧ f s = .next t := by
  cases o <;> simp [andThen]

/-! ## Output -/

theorem outAppend_next {b : Byte} {s t : State} :
    outAppend b s = .next t ↔
      Params.reached s.params.maxOut s.outLen = false ∧
        t = { s with out := writeByteAt s.out s.outLen b, outLen := s.outLen + 1 } := by
  unfold outAppend
  split
  · simp [*]
  · simp only [Host.Outcome.next.injEq, Bool.not_eq_true] at *
    exact ⟨fun h => ⟨‹_›, h.symm⟩, fun h => h.2.symm⟩

/-- A list of appends: OUT_LEN grows by its length, and every other field but OUT is as before. -/
theorem outAppendAll_next {bs : List Byte} {s t : State} (h : outAppendAll bs s = .next t) :
    t = { s with out := writeBytesAt s.out s.outLen bs, outLen := s.outLen + bs.length } := by
  induction bs generalizing s with
  | nil => simp only [outAppendAll, Host.Outcome.next.injEq] at h; subst h; rfl
  | cons b bs ih =>
    obtain ⟨u, hu, ht⟩ := andThen_next.mp h
    obtain ⟨-, rfl⟩ := outAppend_next.mp hu
    rw [ih ht, List.length_cons, Nat.add_comm bs.length 1, ← Nat.add_assoc]
    rfl

@[simp] theorem resolve_length (len dist : Nat) (s : State) : (resolve len dist s).length = len := by simp [resolve]

/-! ## The block list -/

theorem emitItem_next {k : ItemKind} {b : Nat} {s t : State} :
    emitItem k b s = .next t ↔
      Params.reached s.params.maxItems (openItems s).length = false ∧ t = modifyRecord (addItem k b (bitOffset s)) s := by
  unfold emitItem
  split
  · simp [*]
  · simp only [Host.Outcome.next.injEq, Bool.not_eq_true] at *
    exact ⟨fun h => ⟨‹_›, h.symm⟩, fun h => h.2.symm⟩

theorem appendRecord_next {r : BlockRecord} {s t : State} :
    appendRecord r s = .next t ↔
      Params.reached s.params.maxBlocks s.blkCount = false ∧
        (r.items ≠ [] → Params.reached s.params.maxItems 0 = false) ∧
        t = { s with trace := s.trace ++ [r], blkCount := s.blkCount + 1 } := by
  unfold appendRecord
  split
  · simp [*]
  · split
    · simp_all
    · simp only [Host.Outcome.next.injEq, not_and, Bool.not_eq_true] at *
      exact ⟨fun h => ⟨‹_›, ‹_›, h.symm⟩, fun h => h.2.2.symm⟩

theorem openBlock_next {k : BlockKind} {s t : State} :
    openBlock k s = .next t ↔
      Params.reached s.params.maxBlocks s.blkCount = false ∧
        t = { s with
          trace := s.trace ++
            [{ index := s.blkCount, kind := k, final := some s.bfinal, startBit := s.blkStart,
               outStart := s.blkOutStart, storedLen := none, storedNLen := none, items := [], isPartial := false,
               closed := none }]
          blkCount := s.blkCount + 1, blkOpen := true } := by
  unfold openBlock
  rw [andThen_next]
  constructor
  · rintro ⟨u, hu, ht⟩
    obtain ⟨h1, -, rfl⟩ := appendRecord_next.mp hu
    exact ⟨h1, (Host.Outcome.next.inj ht).symm⟩
  · rintro ⟨h1, rfl⟩
    exact ⟨_, appendRecord_next.mpr ⟨h1, by simp, rfl⟩, rfl⟩

/-- The error entry on the block list: an open record is closed as partial, and a list without one is left alone. -/
theorem raise_trace (e : ErrorCode) (s : State) :
    (raise e s).trace =
      if s.blkOpen then
        s.trace.modify (s.blkCount - 1) fun r =>
          { r with
            isPartial := true
            closed := some (closing s.out r.startBit (bitOffset s) r.outStart s.outLen) }
      else s.trace := by
  unfold raise
  split <;> simp_all [closeRecord, modifyRecord, bitOffset]

/-! ## The reads -/

/-- A successful `ReadBits` leaves the bits after it. -/
theorem takeBits_rest {n v : Nat} {bs rest : Bits} (h : takeBits n bs = some (v, rest)) :
    n ≤ bs.length ∧ rest = bs.drop n ∧ v < 2 ^ n := by
  induction n generalizing bs rest v with
  | zero =>
    simp only [takeBits, Option.some.injEq, Prod.mk.injEq] at h
    simp [← h.1, ← h.2]
  | succ n ih =>
    cases bs with
    | nil => simp [takeBits] at h
    | cons b bs =>
      unfold takeBits at h
      split at h
      · rename_i v' rest' hr
        obtain ⟨h1, h2, h3⟩ := ih hr
        simp only [Option.some.injEq, Prod.mk.injEq] at h
        obtain ⟨rfl, rfl⟩ := h
        refine ⟨by simpa using h1, by simpa using h2, ?_⟩
        have := b.toNat_lt
        rw [pow_succ]
        omega
      · simp at h

/-- `ReadBits` succeeds exactly when the bits are there. -/
theorem takeBits_isSome {n : Nat} {bs : Bits} : (takeBits n bs).isSome ↔ n ≤ bs.length := by
  induction n generalizing bs with
  | zero => simp [takeBits]
  | succ n ih =>
    cases bs with
    | nil => simp [takeBits]
    | cons b bs =>
      simp only [takeBits, List.length_cons, Nat.add_le_add_iff_right, ← ih]
      cases takeBits n bs <;> simp

/-- A search that finds a symbol has read at least one bit and no more than there are. -/
theorem searchCode_found {t : HuffTable} {fuel code n sym n' : Nat} {bs rest : Bits}
    (h : searchCode t fuel code n bs = .found sym n' rest) :
    n < n' ∧ n' ≤ n + fuel ∧ n' - n ≤ bs.length ∧ rest = bs.drop (n' - n) := by
  induction fuel generalizing code n bs with
  | zero => simp [searchCode] at h
  | succ fuel ih =>
    cases bs with
    | nil => simp [searchCode] at h
    | cons b bs =>
      unfold searchCode at h
      split at h
      · simp only [Search.found.injEq] at h
        obtain ⟨rfl, rfl, rfl⟩ := h
        simp
      · obtain ⟨h1, h2, h3, h4⟩ := ih h
        refine ⟨by omega, by omega, by simp; omega, ?_⟩
        rw [h4, show n' - n = (n' - (n + 1)) + 1 by omega, List.drop_succ_cons]

/-- A coded read takes at least one bit, and its code and extra bits are there. -/
theorem readCoded_coded {t : HuffTable} {ext : Nat → Nat} {bs : Bits} {sym n e : Nat}
    (h : readCoded t ext bs = .coded sym n e) :
    1 ≤ n ∧ n ≤ 15 ∧ n + ext sym ≤ bs.length ∧ e < 2 ^ ext sym := by
  unfold readCoded at h
  split at h
  · simp at h
  · simp at h
  · rename_i sym' n' rest hd
    obtain ⟨h1, h2, h3, h4⟩ := searchCode_found hd
    split at h
    · rename_i e' r' hb
      obtain ⟨h5, -, h6⟩ := takeBits_rest hb
      simp only [Coded.coded.injEq] at h
      obtain ⟨rfl, rfl, rfl⟩ := h
      subst h4
      simp only [List.length_drop] at h5
      exact ⟨by omega, by omega, by omega, h6⟩
    · simp at h

/-- A search that ends for another reason has not read more bits than there are. -/
theorem searchCode_short {t : HuffTable} {fuel code n n' : Nat} {bs : Bits}
    (h : searchCode t fuel code n bs = .endOfData n' ∨ searchCode t fuel code n bs = .noMatch n') :
    n ≤ n' ∧ n' - n ≤ bs.length := by
  induction fuel generalizing code n bs with
  | zero => simp [searchCode] at h; omega
  | succ fuel ih =>
    cases bs with
    | nil => simp [searchCode] at h; simp [h]
    | cons b bs =>
      unfold searchCode at h
      split at h
      · simp at h
      · obtain ⟨h1, h2⟩ := ih h
        refine ⟨by omega, by simp; omega⟩

/-- A coded read that fails keeps no more bits than there are. -/
theorem readCoded_short {t : HuffTable} {ext : Nat → Nat} {bs : Bits} {n : Nat}
    (h : readCoded t ext bs = .endOfData n ∨ readCoded t ext bs = .noMatch n) : n ≤ bs.length := by
  unfold readCoded at h
  split at h
  · rename_i m hd
    have := (searchCode_short (.inl hd)).2
    simp at h; omega
  · rename_i m hd
    have := (searchCode_short (.inr hd)).2
    simp at h; omega
  · rename_i sym m rest hd
    have := (searchCode_found hd).2.2.1
    split at h <;> simp at h
    omega

end Sys2Proof.Machine
end

