-- ==== Sys2Proof/Laws/PerInstr.lean ====
section
/-! SUPPORT. Statements made for every instruction, one lemma for each constructor. The family ElementSize: the sizes of
30_encoding.md R92. -/

namespace Sys2Proof.Laws.ElementSize

open Machine

/-- A well-formed element takes at least 1 and at most 71 bits, its pad apart (30_encoding.md R92). -/
def Statement (i : Instr) : Prop := wellFormed i = true → 1 ≤ elementBits i ∧ elementBits i ≤ 71

/-- A code length that passes its check is 1..15. -/
theorem codeLenOk_range {n : Nat} (h : codeLenOk n = true) : 1 ≤ n ∧ n ≤ 15 := by simpa [codeLenOk] using h

/-- A code length of the code-length code that passes its check is 1..7. -/
theorem clCodeLenOk_range {n : Nat} (h : clCodeLenOk n = true) : 1 ≤ n ∧ n ≤ 7 := by simpa [clCodeLenOk] using h

/-- The extra bits of a length symbol are at most 5 (44_symbols.md R237). -/
theorem lenExtra_le (sym : Nat) : lenExtra sym ≤ 5 := by
  unfold lenExtra lenExtraTable
  rw [List.getD_eq_getElem?_getD]
  generalize sym - 257 = k
  by_cases h : k < 29
  · interval_cases k <;> decide
  · rw [List.getElem?_eq_none (by simpa using h)]
    decide

/-- The extra bits of a distance symbol are at most 13 (44_symbols.md R238). -/
theorem distExtra_le (sym : Nat) : distExtra sym ≤ 13 := by
  unfold distExtra distExtraTable
  rw [List.getD_eq_getElem?_getD]
  by_cases h : sym < 30
  · interval_cases sym <;> decide
  · rw [List.getElem?_eq_none (by simpa using h)]
    decide

theorem zhdr (cmf flg : BitVec 8) : Statement (.zhdr cmf flg) := fun _ => of_decide_eq_true rfl
theorem bhdrStored (final : Bool) : Statement (.bhdrStored final) := fun _ => of_decide_eq_true rfl
theorem bhdrFixed (final : Bool) : Statement (.bhdrFixed final) := fun _ => of_decide_eq_true rfl
theorem bhdrDynamic (final : Bool) : Statement (.bhdrDynamic final) := fun _ => of_decide_eq_true rfl
theorem bhdrReserved (final : Bool) : Statement (.bhdrReserved final) := fun _ => of_decide_eq_true rfl
theorem sthdr (len nlen : BitVec 16) : Statement (.sthdr len nlen) := fun _ => of_decide_eq_true rfl
theorem stbyte (b : BitVec 8) : Statement (.stbyte b) := fun _ => of_decide_eq_true rfl
theorem dynhdr (h d : BitVec 5) (c : BitVec 4) (cl : List (BitVec 3)) : Statement (.dynhdr h d c cl) := by
  intro hw
  have h1 : cl.length = c.toNat + 4 := of_decide_eq_true hw
  have h2 : c.toNat < 16 := c.isLt
  show 1 ≤ 14 + 3 * cl.length ∧ 14 + 3 * cl.length ≤ 71
  omega
theorem clLen (n : Nat) (v : BitVec 4) : Statement (.clLen n v) := by
  intro h
  obtain ⟨h1, h2⟩ := clCodeLenOk_range h
  exact ⟨h1, Nat.le_trans h2 (by decide)⟩
theorem cl16 (n : Nat) (e : BitVec 2) : Statement (.cl16 n e) := by
  intro h
  have := clCodeLenOk_range h
  exact ⟨Nat.le_add_left 1 (n + 1), show n + 2 ≤ 71 by omega⟩
theorem cl17 (n : Nat) (e : BitVec 3) : Statement (.cl17 n e) := by
  intro h
  have := clCodeLenOk_range h
  exact ⟨Nat.le_add_left 1 (n + 2), show n + 3 ≤ 71 by omega⟩
theorem cl18 (n : Nat) (e : BitVec 7) : Statement (.cl18 n e) := by
  intro h
  have := clCodeLenOk_range h
  exact ⟨Nat.le_add_left 1 (n + 6), show n + 7 ≤ 71 by omega⟩
theorem lit8a (x : BitVec 4) : Statement (.lit8a x) := fun _ => of_decide_eq_true rfl
theorem lit8b (x : BitVec 6) : Statement (.lit8b x) := fun _ => of_decide_eq_true rfl
theorem lit8c (x : BitVec 6) : Statement (.lit8c x) := fun _ => of_decide_eq_true rfl
theorem lit9a (x : BitVec 4) : Statement (.lit9a x) := fun _ => of_decide_eq_true rfl
theorem lit9b (x : BitVec 5) : Statement (.lit9b x) := fun _ => of_decide_eq_true rfl
theorem lit9c (x : BitVec 6) : Statement (.lit9c x) := fun _ => of_decide_eq_true rfl
theorem eob : Statement (.eob) := fun _ => of_decide_eq_true rfl
theorem len257 : Statement (.len257) := fun _ => of_decide_eq_true rfl
theorem len258 : Statement (.len258) := fun _ => of_decide_eq_true rfl
theorem len259 : Statement (.len259) := fun _ => of_decide_eq_true rfl
theorem len260 : Statement (.len260) := fun _ => of_decide_eq_true rfl
theorem len261 : Statement (.len261) := fun _ => of_decide_eq_true rfl
theorem len262 : Statement (.len262) := fun _ => of_decide_eq_true rfl
theorem len263 : Statement (.len263) := fun _ => of_decide_eq_true rfl
theorem len264 : Statement (.len264) := fun _ => of_decide_eq_true rfl
theorem len265 (le : BitVec 1) : Statement (.len265 le) := fun _ => of_decide_eq_true rfl
theorem len266 (le : BitVec 1) : Statement (.len266 le) := fun _ => of_decide_eq_true rfl
theorem len267 (le : BitVec 1) : Statement (.len267 le) := fun _ => of_decide_eq_true rfl
theorem len268 (le : BitVec 1) : Statement (.len268 le) := fun _ => of_decide_eq_true rfl
theorem len269 (le : BitVec 2) : Statement (.len269 le) := fun _ => of_decide_eq_true rfl
theorem len270 (le : BitVec 2) : Statement (.len270 le) := fun _ => of_decide_eq_true rfl
theorem len271 (le : BitVec 2) : Statement (.len271 le) := fun _ => of_decide_eq_true rfl
theorem len272 (le : BitVec 2) : Statement (.len272 le) := fun _ => of_decide_eq_true rfl
theorem len273 (le : BitVec 3) : Statement (.len273 le) := fun _ => of_decide_eq_true rfl
theorem len274 (le : BitVec 3) : Statement (.len274 le) := fun _ => of_decide_eq_true rfl
theorem len275 (le : BitVec 3) : Statement (.len275 le) := fun _ => of_decide_eq_true rfl
theorem len276 (le : BitVec 3) : Statement (.len276 le) := fun _ => of_decide_eq_true rfl
theorem len277 (le : BitVec 4) : Statement (.len277 le) := fun _ => of_decide_eq_true rfl
theorem len278 (le : BitVec 4) : Statement (.len278 le) := fun _ => of_decide_eq_true rfl
theorem len279 (le : BitVec 4) : Statement (.len279 le) := fun _ => of_decide_eq_true rfl
theorem len280 (le : BitVec 4) : Statement (.len280 le) := fun _ => of_decide_eq_true rfl
theorem len281 (le : BitVec 5) : Statement (.len281 le) := fun _ => of_decide_eq_true rfl
theorem len282 (le : BitVec 5) : Statement (.len282 le) := fun _ => of_decide_eq_true rfl
theorem len283 (le : BitVec 5) : Statement (.len283 le) := fun _ => of_decide_eq_true rfl
theorem len284 (le : BitVec 5) : Statement (.len284 le) := fun _ => of_decide_eq_true rfl
theorem len285 : Statement (.len285) := fun _ => of_decide_eq_true rfl
theorem badLit286 : Statement (.badLit286) := fun _ => of_decide_eq_true rfl
theorem badLit287 : Statement (.badLit287) := fun _ => of_decide_eq_true rfl
theorem dist0 (m : LenPart) : Statement (.dist0 m) := fun _ => of_decide_eq_true rfl
theorem dist1 (m : LenPart) : Statement (.dist1 m) := fun _ => of_decide_eq_true rfl
theorem dist2 (m : LenPart) : Statement (.dist2 m) := fun _ => of_decide_eq_true rfl
theorem dist3 (m : LenPart) : Statement (.dist3 m) := fun _ => of_decide_eq_true rfl
theorem dist4 (m : LenPart) (de : BitVec 1) : Statement (.dist4 m de) := fun _ => of_decide_eq_true rfl
theorem dist5 (m : LenPart) (de : BitVec 1) : Statement (.dist5 m de) := fun _ => of_decide_eq_true rfl
theorem dist6 (m : LenPart) (de : BitVec 2) : Statement (.dist6 m de) := fun _ => of_decide_eq_true rfl
theorem dist7 (m : LenPart) (de : BitVec 2) : Statement (.dist7 m de) := fun _ => of_decide_eq_true rfl
theorem dist8 (m : LenPart) (de : BitVec 3) : Statement (.dist8 m de) := fun _ => of_decide_eq_true rfl
theorem dist9 (m : LenPart) (de : BitVec 3) : Statement (.dist9 m de) := fun _ => of_decide_eq_true rfl
theorem dist10 (m : LenPart) (de : BitVec 4) : Statement (.dist10 m de) := fun _ => of_decide_eq_true rfl
theorem dist11 (m : LenPart) (de : BitVec 4) : Statement (.dist11 m de) := fun _ => of_decide_eq_true rfl
theorem dist12 (m : LenPart) (de : BitVec 5) : Statement (.dist12 m de) := fun _ => of_decide_eq_true rfl
theorem dist13 (m : LenPart) (de : BitVec 5) : Statement (.dist13 m de) := fun _ => of_decide_eq_true rfl
theorem dist14 (m : LenPart) (de : BitVec 6) : Statement (.dist14 m de) := fun _ => of_decide_eq_true rfl
theorem dist15 (m : LenPart) (de : BitVec 6) : Statement (.dist15 m de) := fun _ => of_decide_eq_true rfl
theorem dist16 (m : LenPart) (de : BitVec 7) : Statement (.dist16 m de) := fun _ => of_decide_eq_true rfl
theorem dist17 (m : LenPart) (de : BitVec 7) : Statement (.dist17 m de) := fun _ => of_decide_eq_true rfl
theorem dist18 (m : LenPart) (de : BitVec 8) : Statement (.dist18 m de) := fun _ => of_decide_eq_true rfl
theorem dist19 (m : LenPart) (de : BitVec 8) : Statement (.dist19 m de) := fun _ => of_decide_eq_true rfl
theorem dist20 (m : LenPart) (de : BitVec 9) : Statement (.dist20 m de) := fun _ => of_decide_eq_true rfl
theorem dist21 (m : LenPart) (de : BitVec 9) : Statement (.dist21 m de) := fun _ => of_decide_eq_true rfl
theorem dist22 (m : LenPart) (de : BitVec 10) : Statement (.dist22 m de) := fun _ => of_decide_eq_true rfl
theorem dist23 (m : LenPart) (de : BitVec 10) : Statement (.dist23 m de) := fun _ => of_decide_eq_true rfl
theorem dist24 (m : LenPart) (de : BitVec 11) : Statement (.dist24 m de) := fun _ => of_decide_eq_true rfl
theorem dist25 (m : LenPart) (de : BitVec 11) : Statement (.dist25 m de) := fun _ => of_decide_eq_true rfl
theorem dist26 (m : LenPart) (de : BitVec 12) : Statement (.dist26 m de) := fun _ => of_decide_eq_true rfl
theorem dist27 (m : LenPart) (de : BitVec 12) : Statement (.dist27 m de) := fun _ => of_decide_eq_true rfl
theorem dist28 (m : LenPart) (de : BitVec 13) : Statement (.dist28 m de) := fun _ => of_decide_eq_true rfl
theorem dist29 (m : LenPart) (de : BitVec 13) : Statement (.dist29 m de) := fun _ => of_decide_eq_true rfl
theorem badDist30 (m : LenPart) : Statement (.badDist30 m) := fun _ => of_decide_eq_true rfl
theorem badDist31 (m : LenPart) : Statement (.badDist31 m) := fun _ => of_decide_eq_true rfl
theorem litDyn (n : Nat) (b : BitVec 8) : Statement (.litDyn n b) := by
  intro h
  have := codeLenOk_range h
  exact show 1 ≤ n ∧ n ≤ 71 by omega
theorem eobDyn (n : Nat) : Statement (.eobDyn n) := by
  intro h
  have := codeLenOk_range h
  exact show 1 ≤ n ∧ n ≤ 71 by omega
theorem matchDyn (n sym le : Nat) : Statement (.matchDyn n sym le) := by
  intro h
  have h : (((codeLenOk n && decide (257 ≤ sym)) && decide (sym ≤ 285)) && decide (le < 2 ^ lenExtra sym)) = true := h
  simp only [Bool.and_eq_true] at h
  have := codeLenOk_range h.1.1.1
  have := lenExtra_le sym
  exact show 1 ≤ n + lenExtra sym ∧ n + lenExtra sym ≤ 71 by omega
theorem distDyn (m : LenPart) (n sym de : Nat) : Statement (.distDyn m n sym de) := by
  intro h
  have h : (((m.ok && codeLenOk n) && decide (sym < 30)) && decide (de < 2 ^ distExtra sym)) = true := h
  simp only [Bool.and_eq_true] at h
  have := codeLenOk_range h.1.1.2
  have := distExtra_le sym
  exact show 1 ≤ n + distExtra sym ∧ n + distExtra sym ≤ 71 by omega
theorem badLitDyn (n sym : Nat) : Statement (.badLitDyn n sym) := by
  intro h
  have h : ((codeLenOk n && decide (286 ≤ sym)) && decide (sym ≤ 287)) = true := h
  simp only [Bool.and_eq_true] at h
  have := codeLenOk_range h.1.1
  exact show 1 ≤ n ∧ n ≤ 71 by omega
theorem badDistDyn (m : LenPart) (n sym : Nat) : Statement (.badDistDyn m n sym) := by
  intro h
  have h : (((m.ok && codeLenOk n) && decide (30 ≤ sym)) && decide (sym ≤ 31)) = true := h
  simp only [Bool.and_eq_true] at h
  have := codeLenOk_range h.1.1.2
  exact show 1 ≤ n ∧ n ≤ 71 by omega
theorem ztrl (a : BitVec 32) : Statement (.ztrl a) := fun _ => of_decide_eq_true rfl

end Sys2Proof.Laws.ElementSize
end

