-- ==== Sys2Proof/Tests/Slice0.lean ====
section
/-! SUPPORT. Small tests: ill-formed terms, decoding of words written out from the spec's encodings, single steps with
the results of 95_test_vectors.md and of the rules' examples, and a witness for the hypotheses of each statement. -/

namespace Sys2Proof.Tests

open Sys2Proof Sys2Proof.Machine

set_option Elab.async false

/-! ## Helpers -/

/-- Bits in stream order, written as 0 and 1. -/
def bits (l : List Nat) : Bits := l.map (· == 1)

/-- CL_TAB of vector dyn_hand (95_test_vectors.md L2.5). -/
def clTable : HuffTable := [⟨4, 3, 0⟩, ⟨5, 3, 1⟩, ⟨0, 2, 2⟩, ⟨6, 3, 3⟩, ⟨7, 3, 16⟩, ⟨1, 2, 18⟩]

/-- CL_TAB of vector dyn_cl17. -/
def clTable17 : HuffTable := [⟨0, 2, 1⟩, ⟨1, 2, 2⟩, ⟨2, 2, 17⟩, ⟨3, 2, 18⟩]

/-- LIT_TAB of vector dyn_hand. -/
def litTable : HuffTable := [⟨4, 3, 97⟩, ⟨5, 3, 98⟩, ⟨6, 3, 99⟩, ⟨7, 3, 100⟩, ⟨0, 2, 256⟩, ⟨1, 2, 258⟩]

/-- DIST_TAB of vector dyn_hand. -/
def distTable : HuffTable := [⟨0, 1, 1⟩, ⟨1, 1, 3⟩]

/-- A state with an input, the cursor at a bit offset, and ST as given. -/
def at_ (st : CoreState) (input : List Byte) (offset : Nat) : State :=
  { State.reset with
    st := st, inMem := writeBytesAt [] 0 input, inLen := input.length, curByte := offset / 8
    curBit := BitVec.ofNat 3 (offset % 8) }

/-- The same inside a block that began at bit 16, with some output before. -/
def inBlock (st : CoreState) (input : List Byte) (offset : Nat) (output : List Byte) : State :=
  { at_ st input offset with
    blkCount := 1, blkOpen := true, btype := 1, out := writeBytesAt [] 0 output, outLen := output.length
    trace := [{ openedRecord State.reset .fixedHuffman true with startBit := 16 }] }

/-- A view of the next state; `none` when the machine stopped. -/
def after {α : Type} (r : StepResult) (f : State → α) : Option α :=
  match r with
  | .next t => some (f t)
  | .fault _ => none
  | .refused _ => none

/-- The spans and kinds of the last record's items. -/
def lastItems (s : State) : List (ItemKind × Nat × Nat) :=
  ((s.trace.getLast?).map fun r => r.items.map fun it => (it.kind, it.bitStart, it.bitEnd)).getD []

/-- The bytes of OUT. -/
def output (s : State) : List Byte := readBytesAt s.out 0 s.outLen

/-! ## Well-formedness: each check refuses an ill-formed term -/

theorem test_illformed_dynhdr : wellFormed (.dynhdr 0 0 0 [1, 1, 1]) = false := by decide

theorem test_illformed_cl_codes :
    wellFormed (.clLen 0 1) = false ∧ wellFormed (.cl16 8 1) = false ∧ wellFormed (.cl17 0 1) = false ∧
      wellFormed (.cl18 8 1) = false := by decide

theorem test_illformed_length_halves :
    wellFormed (.dist0 ⟨256, 0, 7⟩) = false ∧ wellFormed (.dist29 ⟨286, 0, 8⟩ 0) = false ∧
      wellFormed (.dist1 ⟨265, 2, 8⟩) = false ∧ wellFormed (.dist2 ⟨265, 1, 1⟩) = false ∧
      wellFormed (.badDist30 ⟨257, 0, 16⟩) = false ∧ wellFormed (.badDist31 ⟨257, 0, 0⟩) = false := by decide

theorem test_illformed_dynamic_symbols :
    wellFormed (.litDyn 16 1) = false ∧ wellFormed (.eobDyn 0) = false ∧ wellFormed (.matchDyn 1 256 0) = false ∧
      wellFormed (.matchDyn 1 265 2) = false ∧ wellFormed (.distDyn ⟨257, 0, 7⟩ 1 30 0) = false ∧
      wellFormed (.distDyn ⟨257, 0, 7⟩ 1 4 2) = false ∧ wellFormed (.badLitDyn 1 285) = false ∧
      wellFormed (.badDistDyn ⟨257, 0, 7⟩ 1 32) = false := by decide

theorem test_wellformed_forms :
    wellFormed (.dynhdr 0 0 0 [1, 1, 1, 1]) = true ∧ wellFormed (.clLen 7 1) = true ∧
      wellFormed (.dist4 ⟨265, 1, 8⟩ 1) = true ∧ wellFormed (.matchDyn 15 284 31) = true ∧
      wellFormed (.distDyn ⟨257, 0, 7⟩ 1 29 8191) = true := by decide

/-! ## Decoding -/

/-- Envelope, block header, stored and trailer words (30_encoding.md R91, R97), the examples of R172, R192 and R178. -/
theorem test_decode_headers :
    decode (.zhdr 0) (bits [0, 0, 0, 1, 1, 1, 1, 0, 0, 0, 1, 1, 1, 0, 0, 1]) = .elem (.zhdr 0x78 0x9C) 16 ∧
    decode (.bhdr) (bits [1, 0, 0]) = .elem (.bhdrStored true) 3 ∧
    decode (.bhdr) (bits [1, 1, 0]) = .elem (.bhdrFixed true) 3 ∧
    decode (.bhdr) (bits [1, 0, 1]) = .elem (.bhdrDynamic true) 3 ∧
    decode (.bhdr) (bits [1, 1, 1]) = .elem (.bhdrReserved true) 3 ∧
    decode (.bhdr) (bits [0, 0, 1]) = .elem (.bhdrDynamic false) 3 ∧
    decode (.sthdr 3) (bits [1, 0, 1, 1, 0, 1, 0, 0, 0, 0, 0, 0, 0, 0, 0, 0, 0, 0, 0, 0, 1, 0, 1, 1, 1, 1, 1, 1, 1, 1, 1, 1, 1, 1, 1]) = .elem (.sthdr 5 0xFFFA) 35 ∧
    decode (.stbyte 0) (bits [0, 0, 0, 1, 0, 1, 1, 0]) = .elem (.stbyte 0x68) 8 ∧
    decode (.ztrl 6) (bits [1, 1, 0, 1, 0, 1, 0, 1, 1, 0, 0, 0, 0, 0, 0, 0, 1, 1, 0, 1, 0, 0, 0, 1, 0, 0, 0, 0, 0, 0, 1, 0, 1, 0, 1, 0, 0, 0]) = .elem (.ztrl 0x062C0215) 38 := by
  decide +kernel

/-- The header and the entries of vector dyn_hand, and symbol 17 of dyn_cl17 (95_test_vectors.md L2.5). -/
theorem test_decode_dynamic_header :
    decode (.dynhdr) (bits [0, 1, 0, 0, 0, 1, 1, 0, 0, 0, 0, 1, 1, 1, 1, 1, 0, 0, 0, 0, 0, 1, 0, 1, 1, 0, 0, 0, 0, 0, 0, 0, 0, 0, 0, 0, 0, 0, 0, 0, 0, 0, 0, 0, 0, 0, 0, 0, 0, 0, 0, 0, 0, 1, 1, 0, 0, 0, 0, 0, 1, 0, 0, 0, 0, 1, 1, 0]) = .elem (.dynhdr 2 3 14 [3, 0, 2, 3, 0, 0, 0, 0, 0, 0, 0, 0, 0, 3, 0, 2, 0, 3]) 68 ∧
    decode (.clEntry clTable true) (bits [1, 1, 0]) = .elem (.clLen 3 3) 3 ∧
    decode (.clEntry clTable true) (bits [1, 1, 1, 0, 1]) = .elem (.cl16 3 2) 5 ∧
    decode (.clEntry clTable true) (bits [0, 1, 0, 1, 1, 0, 1, 0, 1]) = .elem (.cl18 2 86) 9 ∧
    decode (.clEntry clTable17 true) (bits [1, 0, 0, 1, 1]) = .elem (.cl17 2 6) 5 := by
  decide +kernel

/-- The fixed literal rows, end of block, and the two unusable codes (30_encoding.md R98). -/
theorem test_decode_literals :
    decode (.symFixed) (bits [0, 0, 1, 1, 1, 0, 1, 1]) = .elem (.lit8a 11) 8 ∧
    decode (.symFixed) (bits [0, 1, 1, 0, 0, 1, 0, 1]) = .elem (.lit8b 37) 8 ∧
    decode (.symFixed) (bits [1, 0, 0, 1, 1, 0, 0, 0]) = .elem (.lit8c 24) 8 ∧
    decode (.symFixed) (bits [1, 1, 0, 0, 1, 1, 1, 0, 1]) = .elem (.lit9a 13) 9 ∧
    decode (.symFixed) (bits [1, 1, 0, 1, 1, 0, 0, 1, 1]) = .elem (.lit9b 19) 9 ∧
    decode (.symFixed) (bits [1, 1, 1, 1, 0, 1, 1, 1, 0]) = .elem (.lit9c 46) 9 ∧
    decode (.symFixed) (bits [0, 0, 0, 0, 0, 0, 0]) = .elem (.eob) 7 ∧
    decode (.symFixed) (bits [1, 1, 0, 0, 0, 1, 1, 0]) = .elem (.badLit286) 8 ∧
    decode (.symFixed) (bits [1, 1, 0, 0, 0, 1, 1, 1]) = .elem (.badLit287) 8 := by
  decide +kernel

/-- Fixed length codes with their extra bits, least significant first (30_encoding.md R98). -/
theorem test_decode_lengths_a :
    decode (.symFixed) (bits [0, 0, 0, 0, 0, 0, 1]) = .elem (.len257) 7 ∧
    decode (.symFixed) (bits [0, 0, 0, 0, 0, 1, 0]) = .elem (.len258) 7 ∧
    decode (.symFixed) (bits [0, 0, 0, 0, 0, 1, 1]) = .elem (.len259) 7 ∧
    decode (.symFixed) (bits [0, 0, 0, 0, 1, 0, 0]) = .elem (.len260) 7 ∧
    decode (.symFixed) (bits [0, 0, 0, 0, 1, 0, 1]) = .elem (.len261) 7 ∧
    decode (.symFixed) (bits [0, 0, 0, 0, 1, 1, 0]) = .elem (.len262) 7 ∧
    decode (.symFixed) (bits [0, 0, 0, 0, 1, 1, 1]) = .elem (.len263) 7 ∧
    decode (.symFixed) (bits [0, 0, 0, 1, 0, 0, 0]) = .elem (.len264) 7 ∧
    decode (.symFixed) (bits [0, 0, 0, 1, 0, 0, 1, 1]) = .elem (.len265 1) 8 ∧
    decode (.symFixed) (bits [0, 0, 0, 1, 0, 1, 0, 1]) = .elem (.len266 1) 8 := by
  decide +kernel

/-- Fixed length codes with their extra bits, least significant first (30_encoding.md R98). -/
theorem test_decode_lengths_b :
    decode (.symFixed) (bits [0, 0, 0, 1, 0, 1, 1, 1]) = .elem (.len267 1) 8 ∧
    decode (.symFixed) (bits [0, 0, 0, 1, 1, 0, 0, 1]) = .elem (.len268 1) 8 ∧
    decode (.symFixed) (bits [0, 0, 0, 1, 1, 0, 1, 0, 1]) = .elem (.len269 2) 9 ∧
    decode (.symFixed) (bits [0, 0, 0, 1, 1, 1, 0, 0, 1]) = .elem (.len270 2) 9 ∧
    decode (.symFixed) (bits [0, 0, 0, 1, 1, 1, 1, 0, 1]) = .elem (.len271 2) 9 ∧
    decode (.symFixed) (bits [0, 0, 1, 0, 0, 0, 0, 0, 1]) = .elem (.len272 2) 9 ∧
    decode (.symFixed) (bits [0, 0, 1, 0, 0, 0, 1, 0, 1, 1]) = .elem (.len273 6) 10 ∧
    decode (.symFixed) (bits [0, 0, 1, 0, 0, 1, 0, 0, 1, 1]) = .elem (.len274 6) 10 ∧
    decode (.symFixed) (bits [0, 0, 1, 0, 0, 1, 1, 0, 1, 1]) = .elem (.len275 6) 10 ∧
    decode (.symFixed) (bits [0, 0, 1, 0, 1, 0, 0, 0, 1, 1]) = .elem (.len276 6) 10 := by
  decide +kernel

/-- Fixed length codes with their extra bits, least significant first (30_encoding.md R98). -/
theorem test_decode_lengths_c :
    decode (.symFixed) (bits [0, 0, 1, 0, 1, 0, 1, 1, 1, 0, 1]) = .elem (.len277 11) 11 ∧
    decode (.symFixed) (bits [0, 0, 1, 0, 1, 1, 0, 1, 1, 0, 1]) = .elem (.len278 11) 11 ∧
    decode (.symFixed) (bits [0, 0, 1, 0, 1, 1, 1, 1, 1, 0, 1]) = .elem (.len279 11) 11 ∧
    decode (.symFixed) (bits [1, 1, 0, 0, 0, 0, 0, 0, 1, 1, 0, 1]) = .elem (.len280 11) 12 ∧
    decode (.symFixed) (bits [1, 1, 0, 0, 0, 0, 0, 1, 1, 1, 0, 0, 1]) = .elem (.len281 19) 13 ∧
    decode (.symFixed) (bits [1, 1, 0, 0, 0, 0, 1, 0, 1, 1, 0, 0, 1]) = .elem (.len282 19) 13 ∧
    decode (.symFixed) (bits [1, 1, 0, 0, 0, 0, 1, 1, 1, 1, 0, 0, 1]) = .elem (.len283 19) 13 ∧
    decode (.symFixed) (bits [1, 1, 0, 0, 0, 1, 0, 0, 1, 1, 0, 0, 1]) = .elem (.len284 19) 13 ∧
    decode (.symFixed) (bits [1, 1, 0, 0, 0, 1, 0, 1]) = .elem (.len285) 8 := by
  decide +kernel

/-- Fixed distance codes with their extra bits, least significant first (30_encoding.md R99). -/
theorem test_decode_distances_a :
    decode (.distFixed ⟨257, 0, 7⟩) (bits [0, 0, 0, 0, 0]) = .elem (.dist0 ⟨257, 0, 7⟩) 5 ∧
    decode (.distFixed ⟨257, 0, 7⟩) (bits [0, 0, 0, 0, 1]) = .elem (.dist1 ⟨257, 0, 7⟩) 5 ∧
    decode (.distFixed ⟨257, 0, 7⟩) (bits [0, 0, 0, 1, 0]) = .elem (.dist2 ⟨257, 0, 7⟩) 5 ∧
    decode (.distFixed ⟨257, 0, 7⟩) (bits [0, 0, 0, 1, 1]) = .elem (.dist3 ⟨257, 0, 7⟩) 5 ∧
    decode (.distFixed ⟨257, 0, 7⟩) (bits [0, 0, 1, 0, 0, 1]) = .elem (.dist4 ⟨257, 0, 7⟩ 1) 6 ∧
    decode (.distFixed ⟨257, 0, 7⟩) (bits [0, 0, 1, 0, 1, 1]) = .elem (.dist5 ⟨257, 0, 7⟩ 1) 6 ∧
    decode (.distFixed ⟨257, 0, 7⟩) (bits [0, 0, 1, 1, 0, 0, 1]) = .elem (.dist6 ⟨257, 0, 7⟩ 2) 7 ∧
    decode (.distFixed ⟨257, 0, 7⟩) (bits [0, 0, 1, 1, 1, 0, 1]) = .elem (.dist7 ⟨257, 0, 7⟩ 2) 7 ∧
    decode (.distFixed ⟨257, 0, 7⟩) (bits [0, 1, 0, 0, 0, 0, 1, 1]) = .elem (.dist8 ⟨257, 0, 7⟩ 6) 8 ∧
    decode (.distFixed ⟨257, 0, 7⟩) (bits [0, 1, 0, 0, 1, 0, 1, 1]) = .elem (.dist9 ⟨257, 0, 7⟩ 6) 8 ∧
    decode (.distFixed ⟨257, 0, 7⟩) (bits [0, 1, 0, 1, 0, 1, 1, 0, 1]) = .elem (.dist10 ⟨257, 0, 7⟩ 11) 9 := by
  decide +kernel

/-- Fixed distance codes with their extra bits, least significant first (30_encoding.md R99). -/
theorem test_decode_distances_b :
    decode (.distFixed ⟨257, 0, 7⟩) (bits [0, 1, 0, 1, 1, 1, 1, 0, 1]) = .elem (.dist11 ⟨257, 0, 7⟩ 11) 9 ∧
    decode (.distFixed ⟨257, 0, 7⟩) (bits [0, 1, 1, 0, 0, 1, 1, 0, 0, 1]) = .elem (.dist12 ⟨257, 0, 7⟩ 19) 10 ∧
    decode (.distFixed ⟨257, 0, 7⟩) (bits [0, 1, 1, 0, 1, 1, 1, 0, 0, 1]) = .elem (.dist13 ⟨257, 0, 7⟩ 19) 10 ∧
    decode (.distFixed ⟨257, 0, 7⟩) (bits [0, 1, 1, 1, 0, 1, 0, 1, 0, 0, 1]) = .elem (.dist14 ⟨257, 0, 7⟩ 37) 11 ∧
    decode (.distFixed ⟨257, 0, 7⟩) (bits [0, 1, 1, 1, 1, 1, 0, 1, 0, 0, 1]) = .elem (.dist15 ⟨257, 0, 7⟩ 37) 11 ∧
    decode (.distFixed ⟨257, 0, 7⟩) (bits [1, 0, 0, 0, 0, 1, 0, 1, 0, 0, 0, 1]) = .elem (.dist16 ⟨257, 0, 7⟩ 69) 12 ∧
    decode (.distFixed ⟨257, 0, 7⟩) (bits [1, 0, 0, 0, 1, 1, 0, 1, 0, 0, 0, 1]) = .elem (.dist17 ⟨257, 0, 7⟩ 69) 12 ∧
    decode (.distFixed ⟨257, 0, 7⟩) (bits [1, 0, 0, 1, 0, 1, 0, 1, 0, 0, 0, 0, 1]) = .elem (.dist18 ⟨257, 0, 7⟩ 133) 13 ∧
    decode (.distFixed ⟨257, 0, 7⟩) (bits [1, 0, 0, 1, 1, 1, 0, 1, 0, 0, 0, 0, 1]) = .elem (.dist19 ⟨257, 0, 7⟩ 133) 13 ∧
    decode (.distFixed ⟨257, 0, 7⟩) (bits [1, 0, 1, 0, 0, 1, 0, 1, 0, 0, 0, 0, 0, 1]) = .elem (.dist20 ⟨257, 0, 7⟩ 261) 14 ∧
    decode (.distFixed ⟨257, 0, 7⟩) (bits [1, 0, 1, 0, 1, 1, 0, 1, 0, 0, 0, 0, 0, 1]) = .elem (.dist21 ⟨257, 0, 7⟩ 261) 14 := by
  decide +kernel

/-- Fixed distance codes with their extra bits, least significant first (30_encoding.md R99). -/
theorem test_decode_distances_c :
    decode (.distFixed ⟨257, 0, 7⟩) (bits [1, 0, 1, 1, 0, 1, 0, 1, 0, 0, 0, 0, 0, 0, 1]) = .elem (.dist22 ⟨257, 0, 7⟩ 517) 15 ∧
    decode (.distFixed ⟨257, 0, 7⟩) (bits [1, 0, 1, 1, 1, 1, 0, 1, 0, 0, 0, 0, 0, 0, 1]) = .elem (.dist23 ⟨257, 0, 7⟩ 517) 15 ∧
    decode (.distFixed ⟨257, 0, 7⟩) (bits [1, 1, 0, 0, 0, 1, 0, 1, 0, 0, 0, 0, 0, 0, 0, 1]) = .elem (.dist24 ⟨257, 0, 7⟩ 1029) 16 ∧
    decode (.distFixed ⟨257, 0, 7⟩) (bits [1, 1, 0, 0, 1, 1, 0, 1, 0, 0, 0, 0, 0, 0, 0, 1]) = .elem (.dist25 ⟨257, 0, 7⟩ 1029) 16 ∧
    decode (.distFixed ⟨257, 0, 7⟩) (bits [1, 1, 0, 1, 0, 1, 0, 1, 0, 0, 0, 0, 0, 0, 0, 0, 1]) = .elem (.dist26 ⟨257, 0, 7⟩ 2053) 17 ∧
    decode (.distFixed ⟨257, 0, 7⟩) (bits [1, 1, 0, 1, 1, 1, 0, 1, 0, 0, 0, 0, 0, 0, 0, 0, 1]) = .elem (.dist27 ⟨257, 0, 7⟩ 2053) 17 ∧
    decode (.distFixed ⟨257, 0, 7⟩) (bits [1, 1, 1, 0, 0, 1, 0, 1, 0, 0, 0, 0, 0, 0, 0, 0, 0, 1]) = .elem (.dist28 ⟨257, 0, 7⟩ 4101) 18 ∧
    decode (.distFixed ⟨257, 0, 7⟩) (bits [1, 1, 1, 0, 1, 1, 0, 1, 0, 0, 0, 0, 0, 0, 0, 0, 0, 1]) = .elem (.dist29 ⟨257, 0, 7⟩ 4101) 18 ∧
    decode (.distFixed ⟨257, 0, 7⟩) (bits [1, 1, 1, 1, 0]) = .elem (.badDist30 ⟨257, 0, 7⟩) 5 ∧
    decode (.distFixed ⟨257, 0, 7⟩) (bits [1, 1, 1, 1, 1]) = .elem (.badDist31 ⟨257, 0, 7⟩) 5 := by
  decide +kernel

/-- The tables of dyn_hand, dyn_sym287 and dyn_dist30 (95_test_vectors.md L2.5). -/
theorem test_decode_dynamic_symbols :
    decode (.symDyn litTable) (bits [1, 0, 1]) = .elem (.litDyn 3 98) 3 ∧
    decode (.symDyn litTable) (bits [0, 0]) = .elem (.eobDyn 2) 2 ∧
    decode (.symDyn litTable) (bits [0, 1]) = .elem (.matchDyn 2 258 0) 2 ∧
    decode (.distDyn distTable ⟨258, 0, 2⟩) (bits [1]) = .elem (.distDyn ⟨258, 0, 2⟩ 1 3 0) 1 ∧
    decode (.symDyn [⟨2, 2, 256⟩, ⟨3, 2, 287⟩]) (bits [1, 1]) = .elem (.badLitDyn 2 287) 2 ∧
    decode (.distDyn [⟨0, 1, 0⟩, ⟨1, 1, 30⟩] ⟨257, 0, 2⟩) (bits [1]) = .elem (.badDistDyn ⟨257, 0, 2⟩ 1 30) 1 := by
  decide +kernel

/-! ## Single steps -/

/-- R172: CMF = 0x78, FLG = 0x9C. -/
theorem test_zhdr_step :
    after (step (at_ .zhdr [0x78, 0x9C, 0xCB] 0)) (fun t =>
        t.st == .bhdr && bitOffset t == 16 && t.blkCount == 1 &&
          lastItems t == [(.zlibHeader 0x78 0x9C 8 7 28 0 2, 0, 16)]) = some true := by decide +kernel

/-- 42_zlib_envelope.md R171: one byte of input raises UnexpectedEndOfData at 0. -/
theorem test_zhdr_truncated :
    after (step (at_ .zhdr [0x78] 0)) (fun t => (t.st, t.errCode, t.errPos, t.errBlk, t.hdrValid)) =
      some (.error, .unexpectedEndOfData, 0, 0, false) := by decide +kernel

/-- The "hello" stream of L1.12: BFINAL = 1, BTYPE = 1 at bit 16. -/
theorem test_bhdr_fixed_step :
    after (step (at_ .bhdr [0x78, 0x9C, 0xCB] 16)) (fun t => (t.st, bitOffset t, t.bfinal, t.btype, t.blkStart)) =
      some (.symbol, 19, true, 1, 16) := by decide +kernel

/-- R187: `78 9C 07 00`. -/
theorem test_bhdr_reserved_step :
    after (step (at_ .bhdr [0x78, 0x9C, 0x07, 0x00] 16)) (fun t => (t.st, t.errCode, t.errPos, t.trace)) =
      some (.error, .invalidBlockType, 19, []) := by decide +kernel

/-- R186: the end of the data behind BFINAL keeps it and its bit. -/
theorem test_bhdr_truncated :
    after (step (at_ .bhdr [0x78, 0x9C, 0x80] 23)) (fun t => (t.errCode, t.errPos, t.bfinal)) =
      some (.unexpectedEndOfData, 24, true) := by decide +kernel

/-- R192: pad 19..23, then `05 00 FA FF`. -/
theorem test_sthdr_step :
    after (step (inBlock .storedHdr [0x78, 0x01, 0x01, 0x05, 0x00, 0xFA, 0xFF, 0x68] 19 []))
        (fun t => (t.st, bitOffset t, t.slen, t.snlen, t.srem)) =
      some (.storedData, 56, 5, 0xFFFA, 5) := by decide +kernel

/-- R193: LEN = 2, NLEN = 0xFFFC. -/
theorem test_sthdr_bad_complement :
    after (step (inBlock .storedHdr [0x78, 0x9C, 0x00, 0x02, 0x00, 0xFC, 0xFF, 0x68] 19 []))
        (fun t => (t.errCode, t.errPos, (t.trace.map BlockRecord.storedLen), t.outLen)) =
      some (.invalidStoredBlock, 56, [some 2], 0) := by decide +kernel

/-- R194: the last stored byte of a block. -/
theorem test_stbyte_step :
    after (step { inBlock .storedData [0x78, 0x01, 0x01, 0x01, 0x00, 0xFE, 0xFF, 0x6F] 56 [0x6C] with srem := 1 })
        (fun t =>
          t.st == .blockEnd && output t == [0x6C, 0x6F] && t.srem == 0 && lastItems t == [(.literal 0x6F 1, 56, 64)]) =
      some true := by decide +kernel

/-- R200: the header of dyn_hand. -/
theorem test_dynhdr_step :
    after (step (inBlock .dynHdr [0x78, 0x9C, 0x15, 0xC3, 0x07, 0x0D, 0x00, 0x00, 0x00, 0x83, 0x30, 0xAD] 19 []))
        (fun t =>
          t.st == .dynLens && bitOffset t == 87 && t.hlit == 259 && t.hdist == 4 && t.hclen == 18 &&
            t.clTab == clTable) = some true := by decide +kernel

/-- L2.5 dyn_cll_zero: all CLL 0. The item stays. -/
theorem test_dynhdr_zero_lengths :
    after (step (inBlock .dynHdr [0x78, 0x9C, 0x05, 0x00, 0x00, 0x00] 19 []))
        (fun t => (t.errCode, t.errPos, (lastItems t).length)) =
      some (.invalidCodeLengths, 45, 1) := by decide +kernel

/-- The entries of dyn_hand: its table, counts and input, with some lengths written. -/
def dynEntries (offset lcnt : Nat) : State :=
  { inBlock .dynLens
      [0x78, 0x9C, 0x15, 0xC3, 0x07, 0x0D, 0x00, 0x00, 0x00, 0x83, 0x30, 0xAD, 0x3B, 0xFE, 0x35, 0x10, 0xD2, 0x34, 0xDD,
        0x2D, 0x00] offset [] with
    btype := 2, clTab := clTable, hlit := 259, hdist := 4, lcnt := BitVec.ofNat 9 lcnt }

/-- R202: code 110 at 96 is symbol 3. -/
theorem test_cl_len_step :
    after (step (dynEntries 96 97)) (fun t =>
        bitOffset t == 99 && t.lcnt == 98 && t.lens.getD 97 0 == 3 &&
          lastItems t == [(.dynamicCodeLengthEntry 3 none 1 3 97, 96, 99)]) = some true := by decide +kernel

/-- R203: code 111 and extra 0 at 99 repeat the length before three times. -/
theorem test_cl_16_step :
    after (step { dynEntries 99 98 with lens := (dynEntries 0 0).lens.set 97 3 })
        (fun t =>
          bitOffset t == 104 && t.lcnt == 101 && (t.lens.drop 97).take 5 == [3, 3, 3, 3, 0] &&
            lastItems t == [(.dynamicCodeLengthEntry 16 (some 0) 3 3 98, 99, 104)]) = some true := by decide +kernel

/-- L2.5 dyn_16first: symbol 16 as the first entry raises before its extra bits. -/
theorem test_cl_16_first :
    after (exec (.cl16 1 0) (inBlock .dynLens [0x78, 0x9C, 0x05, 0x00, 0x02, 0x24] 45 []))
        (fun t => (t.errCode, t.errPos)) = some (.invalidCodeLengths, 46) := by decide +kernel

/-- R204: code 01 and extra 86 at 87 write 97 zeros. -/
theorem test_cl_18_step :
    after (step (dynEntries 87 0)) (fun t => (bitOffset t, t.lcnt, lastItems t)) =
      some (96, 97, [(.dynamicCodeLengthEntry 18 (some 86) 97 0 0, 87, 96)]) := by decide +kernel

/-- L2.5 dyn_cl17: extra 7 repeats ten zeros. -/
theorem test_cl_17_step :
    after (exec (.cl17 2 7) { inBlock .dynLens [] 96 [] with hlit := 258, hdist := 2, lcnt := 87 })
        (fun t => (bitOffset t, t.lcnt, lastItems t)) =
      some (101, 97, [(.dynamicCodeLengthEntry 17 (some 7) 10 0 87, 96, 101)]) := by decide +kernel

/-- L2.5 dyn_overrun: 138 + 121 passes 258. -/
theorem test_cl_18_overrun :
    after (exec (.cl18 1 110) { inBlock .dynLens [] 53 [] with hlit := 257, hdist := 1, lcnt := 138 })
        (fun t => (t.errCode, t.errPos, t.lcnt)) = some (.invalidCodeLengths, 61, 138) := by decide +kernel

/-- The lengths of dyn_hand (L2.5). -/
def dynLengths : List (BitVec 4) :=
  List.replicate 97 0 ++ [3, 3, 3, 3] ++ List.replicate 155 0 ++ [2, 0, 2] ++ [0, 1, 0, 1] ++ List.replicate 57 0

/-- L2.5 dyn_hand: both tables. -/
theorem test_dyn_tables_step :
    after (step { dynEntries 141 263 with st := .dynTables, lens := dynLengths })
        (fun t => (t.st, t.tsel, t.litTab, t.distTab)) =
      some (.symbol, .dyn, litTable, distTable) := by decide +kernel

/-- R231: 'h' in the "hello" stream. -/
theorem test_literal_step :
    after (step (inBlock .symbol [0x78, 0x9C, 0xCB, 0x48, 0xCD] 19 []))
        (fun t =>
          t.st == .symbol && bitOffset t == 27 && output t == [0x68] && lastItems t == [(.literal 0x68 0, 19, 27)]) =
      some true := by decide +kernel

/-- R232: end of block in the "hello" stream. -/
theorem test_eob_step :
    after (step (inBlock .symbol [0x78, 0x9C, 0xCB, 0x48, 0xCD, 0xC9, 0xC9, 0x07, 0x00, 0x06] 59 []))
        (fun t => (t.st, bitOffset t, lastItems t)) =
      some (.blockEnd, 66, [(.endOfBlock, 59, 66)]) := by decide +kernel

/-- R268: the "hello" block closes at 66. -/
theorem test_block_end_step :
    after (step { inBlock .blockEnd [] 66 [0x68, 0x65, 0x6C, 0x6C, 0x6F] with bfinal := true })
        (fun t => (t.st, t.blkOpen, t.trace.map BlockRecord.closed)) =
      some (.ztrl, false, [some ⟨66, 2, 9, 7, 5, [0x68, 0x65, 0x6C, 0x6C, 0x6F]⟩]) := by decide +kernel

/-- R240: code 0xC6 at 19. -/
theorem test_bad_literal_step :
    after (step (inBlock .symbol [0x78, 0x9C, 0x1B, 0x03, 0x00, 0x00, 0x00, 0x00, 0x01] 19 []))
        (fun t => (t.errCode, t.errPos, lastItems t)) = some (.invalidHuffmanCode, 27, []) := by decide +kernel

/-- R241: distance code 11110 behind the length code at 27. -/
theorem test_bad_distance_step :
    after (step (inBlock .symbol [0x78, 0x9C, 0x4B, 0x04, 0x3E, 0x00, 0x00, 0x62, 0x00, 0x62] 27 [0x61]))
        (fun t => (t.errCode, t.errPos, t.outLen)) = some (.invalidHuffmanCode, 39, 1) := by decide +kernel

/-- R244: distance 2 with one byte of output. -/
theorem test_distance_guard_step :
    after (step (inBlock .symbol [0x78, 0x9C, 0x4B, 0x04, 0x42, 0x00, 0x00, 0x62, 0x00, 0x62] 27 [0x61]))
        (fun t => (t.errCode, t.errPos, t.outLen)) = some (.invalidBackReference, 39, 1) := by decide +kernel

/-- L1.13 (a): length 4, distance 5 at 59. -/
theorem test_match_step :
    after (step (inBlock .symbol [0x78, 0x9C, 0x4B, 0x4C, 0x4A, 0x4E, 0x49, 0x05, 0x11, 0x00, 0x11] 59
        [0x61, 0x62, 0x63, 0x64, 0x65]))
        (fun t => (bitOffset t, output t, lastItems t)) =
      some (72, [0x61, 0x62, 0x63, 0x64, 0x65, 0x61, 0x62, 0x63, 0x64],
        [(.backReference 4 5 [0x61, 0x62, 0x63, 0x64] 258 0 4 0 5, 59, 72)]) := by decide +kernel

/-- P4: the second match of dyn_hand, length 4, distance 2, of the block's own tables. -/
theorem test_match_dyn_step :
    after (exec (.matchDyn 2 258 0)
        { inBlock .symbol [0x00, 0x00] 0 [0x61, 0x62, 0x63, 0x64] with tsel := .dyn, distTab := distTable })
        (fun t => (bitOffset t, output t)) =
      some (3, [0x61, 0x62, 0x63, 0x64, 0x63, 0x64, 0x63, 0x64]) := by decide +kernel

/-- L1.11: the overlapping copy. -/
theorem test_resolve_examples :
    resolve 7 2 (inBlock .symbol [] 0 [0x78, 0x79]) = [0x78, 0x79, 0x78, 0x79, 0x78, 0x79, 0x78] ∧
      resolve 4 2 (inBlock .symbol [] 0 [0x61, 0x62, 0x63, 0x64]) = [0x63, 0x64, 0x63, 0x64] := by decide +kernel

/-- L2.6: the lengths and distances of the table's rows, symbol and extra value. -/
theorem test_length_and_distance_values :
    ([(257, 0), (264, 0), (265, 1), (268, 1), (272, 3), (273, 5), (279, 15), (280, 0), (281, 0), (284, 30), (285, 0)].map
        fun p => lenBase p.1 + p.2) = [3, 10, 12, 18, 34, 40, 114, 115, 131, 257, 258] ∧
      ([(0, 0), (3, 0), (4, 1), (5, 0), (6, 0), (7, 3), (16, 0), (20, 0), (24, 0), (28, 0), (29, 8191)].map
        fun p => distBase p.1 + p.2) = [1, 4, 6, 7, 9, 16, 257, 1025, 4097, 16385, 32768] := by decide +kernel

/-- L1.9, L1.12: the trailer of "hello", behind the pad from 66. -/
theorem test_ztrl_step :
    after (step (at_ .ztrl [0, 0, 0, 0, 0, 0, 0, 0, 0, 0x06, 0x2C, 0x02, 0x15] 66))
        (fun t => (t.st, bitOffset t, t.adler, t.trace.map BlockRecord.startBit)) =
      some (.done, 104, 0x062C0215, [72]) := by decide +kernel

/-- R142: the example of Build. -/
theorem test_build_example :
    build [3, 3, 3, 3, 3, 2, 4, 4] =
      some [⟨2, 3, 0⟩, ⟨3, 3, 1⟩, ⟨4, 3, 2⟩, ⟨5, 3, 3⟩, ⟨6, 3, 4⟩, ⟨0, 2, 5⟩, ⟨14, 4, 6⟩, ⟨15, 4, 7⟩] := by decide +kernel

/-- R121: IN = `CB`; ReadBits(1) = 1, then ReadBits(2) = 1, then ReadBits(5) = 25 (L1.1). -/
theorem test_read_bits_example :
    (readBits 1 (at_ .idle [0xCB] 0)).map Prod.fst = some 1 ∧ (readBits 2 (at_ .idle [0xCB] 1)).map Prod.fst = some 1 ∧
      (readBits 5 (at_ .idle [0xCB] 3)).map Prod.fst = some 25 ∧ (readBits 6 (at_ .idle [0xCB] 3)).map Prod.fst = none := by
  decide +kernel

/-- R263: START with an empty input. -/
theorem test_start_empty :
    after (step { State.reset with host := [.writeReg 0 1] }) (fun t => (t.st, t.trace, hostReadReg t 0xA)) =
      some (.done, [], some 0) := by decide +kernel

/-- R30, R33: STATUS 0xB2 and the ZHDR register of program P4's end state. -/
theorem test_host_registers :
    hostReadReg { State.reset with st := .done, zcmf := 0x78, zflg := 0x9C, hdrValid := true } 1 = some 0xB2 ∧
      hostReadReg { State.reset with st := .done, zcmf := 0x78, zflg := 0x9C, hdrValid := true } 7 =
        some 0x9C789C78 := by decide +kernel

/-- The host's two functions on a word: LEN_265 of the opcode table. -/
theorem test_table_word :
    decodeTableWord 8 9 = some (.len265 0) ∧
      after (step (State.reset.withFetchWord 8 9)) bitOffset = some 13 := by
  decide +kernel

/-! ## Witnesses: the hypotheses of each statement, met together -/

/-- Bounded parameters for the boundary cases: 4 bytes of input, 2 of output, 1 item, 1 record, and the spaces placed from
host address 0 on, the registers at 16. -/
def small : Params := ⟨some 4, some 3, some 2, some 1, some 1, some 6,
  some ⟨⟨0, 4⟩, ⟨4, 2⟩, ⟨6, 1⟩, ⟨16, 16⟩⟩⟩

/-- 20_memory.md R79: the spaces are disjoint parts of the host's map; the addresses between them belong to none. -/
theorem test_placement :
    let s : State := { State.reset with params := small }
    hostAddress s .output 1 = some 5 ∧ spaceAt s 5 = some (.output, 1) ∧ hostAddress s .output 2 = none ∧
      spaceAt s 31 = some (.registers, 15) ∧ spaceAt s 7 = none ∧ hostAddress State.reset .input 0 = none := by decide

/-- R79: regions that share an address are no placement; an empty region shares none. -/
theorem test_placement_overlap :
    ({ small with map := some ⟨⟨0, 4⟩, ⟨3, 2⟩, ⟨6, 1⟩, ⟨16, 16⟩⟩ } : Params).ok = false ∧
      ({ small with map := some ⟨⟨0, 4⟩, ⟨3, 0⟩, ⟨6, 1⟩, ⟨16, 16⟩⟩ } : Params).ok = true := by decide

theorem witness_StartBeginsAFreshDecode :
    small.ok = true ∧ Nat.testBit 1 0 = true ∧ Nat.testBit 1 1 = false ∧ Nat.testBit 5 0 = true ∧
      Nat.testBit 5 1 = false ∧ busy { State.reset with params := small, host := [.writeReg 0 1], inLen := 1 } = false ∧
      busy { State.reset with params := small, host := [.writeReg 0 5], st := .zhdr } = true := by decide

theorem witness_ResetMoveRestoresTheResetState :
    small.ok = true ∧ Nat.testBit 2 1 = true ∧ Nat.testBit 3 1 = true ∧
      { State.reset with st := .symbol, params := small, host := [.writeReg 0 3] }.host = [.writeReg 0x0 3] := by decide

theorem witness_IgnoredRegisterWrites :
    ((1 : Nat) ≠ 0x0 ∧ (1 : Nat) ≠ 0x2) ∧ ((0xC : Nat) ≠ 0x0 ∧ (0xC : Nat) ≠ 0x2) ∧
      (Nat.testBit 4 0 = false ∧ Nat.testBit 4 1 = false) ∧ Nat.testBit 1 1 = false ∧
      busy { State.reset with st := .bhdr, host := [.writeReg 2 1] } = true := by decide

theorem witness_InLenWriteIsWriteAnyReadLegal :
    let s : State := { State.reset with params := small, host := [.writeReg 2 4] }
    busy s = false ∧ Params.within s.params.maxIn (regValue s 4) = true ∧
      Params.within s.params.maxIn (regValue s 5) = false := by decide

theorem reset_stateInv : StateInv State.reset where
  zhdr h := nomatch h
  idle _ := ⟨rfl, rfl⟩
  started h := nomatch h
  stored h := absurd h (by decide)
  dynamic h := absurd h (by decide)
  storedData h := nomatch h
  dynLens h := nomatch h
  dynTables h := nomatch h
  fixedSymbol h := nomatch h
  dynSymbol h := nomatch h
  blockEnd h := nomatch h
  ztrl h := nomatch h

theorem witness_HostRegistersShowTheirContents :
    busy State.reset = false ∧ Inv State.reset ∧ State.reset.st ≠ .error :=
  ⟨rfl,
    { params_ok := rfl
      inMem_wf := by decide
      out_wf := by decide
      out_below := fun _ h => nomatch h
      cll_length := rfl
      lens_length := List.length_replicate
      trace_length := rfl
      inLen_within := rfl
      outLen_within := rfl
      blkCount_within := rfl
      items_within := fun _ h => nomatch h
      cursor_le := fun h => nomatch h
      open_iff := rfl
      error_iff := by decide
      error_zero := fun _ => ⟨rfl, rfl⟩
      header_iff := by decide
      trailer_iff := by decide
      byState := reset_stateInv },
    by decide⟩

theorem witness_HostReadsResultsOnlyOutsideBusy :
    let s := { inBlock .symbol [] 19 [0x61] with st := .done }
    busy s = false ∧ 0 < s.outLen ∧ s.trace.length = s.blkCount ∧ 0 < s.blkCount ∧
      busy (inBlock .symbol [] 19 [0x61]) = true ∧ (0 : Nat) ≠ 0x1 := by decide +kernel

theorem witness_HostWritesOneByteOfIn :
    let s : State := { State.reset with params := small, host := [.writeIn 3 7] }
    Memory.wf s.inMem ∧ busy s = false ∧ Params.reached s.params.maxIn 3 = false ∧
      Params.reached s.params.maxIn 4 = true ∧ busy { s with st := .ztrl } = true := by decide

theorem witness_StepRunsTheDecodedElement :
    let s := inBlock .symbol [0x78, 0x9C, 0xCB, 0x48, 0xCD] 19 []
    s.host = [] ∧ contextOf s = some .symFixed ∧ decode .symFixed (stream s) = .elem (.lit8c 24) 8 := by decide +kernel

theorem witness_StepsThatConsumeNoElement :
    [CoreState.dynTables, .blockEnd, .idle, .done, .error].map (fun c => ({ State.reset with st := c }).host) =
      [[], [], [], [], []] := by decide

theorem witness_TruncatedElementRaisesEndOfData :
    let s := at_ .bhdr [0x78, 0x9C, 0x80] 23
    s.host = [] ∧ contextOf s = some .bhdr ∧ decode .bhdr (stream s) = .endOfData (.bfinal true) 1 := by decide +kernel

theorem witness_TruncatedHeadersKeepTheirFirstField :
    let bs (n : Nat) : Bits := List.replicate n true
    (bs 18).length < 3 + 16 ∧ (bs 10).length < 3 + 8 ∧ (bs 34).length < 3 + 32 ∧
      (3 + 16 ≤ (bs 19).length ∧ (bs 34).length < 3 + 32) ∧ bs 0 = [] ∧ (1 ≤ (bs 1).length ∧ (bs 2).length < 3) ∧
      (bs 4).length < 5 ∧ (5 ≤ (bs 5).length ∧ (bs 9).length < 10) ∧ (10 ≤ (bs 10).length ∧ (bs 13).length < 14) ∧
      (14 ≤ (bs 14).length ∧ (bs 70).length < 14 + 3 * ((15 : BitVec 4).toNat + 4) ∧
        (∀ j : Nat, j < 5 → (31 : BitVec 5).getLsbD j = (bs 70).getD j false ∧
          (31 : BitVec 5).getLsbD j = (bs 70).getD (5 + j) false) ∧
        ∀ j : Nat, j < 4 → (15 : BitVec 4).getLsbD j = (bs 70).getD (10 + j) false) := by decide

/-- R128, R291: two bits that are the beginning of a code keep both; the code of LEN_265 keeps its 7 bits where the extra bit
is missing. -/
theorem witness_TruncatedHeadersKeepTheirFirstField_coded :
    (∀ e ∈ litTable, ¬ (List.range e.len).map (fun j => e.code.testBit (e.len - 1 - j)) <+: bits [1, 1]) ∧
      (bits [1, 1]).length < 15 ∧ readCoded litTable lenExtra (bits [1, 1]) = .endOfData 2 ∧
      decodeSymbol fixLit (bits [0, 0, 0, 1, 0, 0, 1]) = .found 265 7 [] ∧ ([] : Bits).length < lenExtra 265 ∧
      readCoded fixLit lenExtra (bits [0, 0, 0, 1, 0, 0, 1]) = .endOfData 7 ∧
      readCoded fixDist distExtra (bits [0, 1]) = .endOfData 2 ∧
      readCoded clTable (clExtra true) (bits [1]) = .endOfData 1 := by decide +kernel

/-- R200, R128: HCLEN = 4 + 1 and the data ends inside the second length; 17 bits stay consumed. -/
theorem test_dynhdr_truncated_lengths :
    decode .dynhdr (bits [1, 0, 0, 0, 0, 0, 1, 0, 0, 0, 1, 0, 0, 0, 1, 1, 0, 1, 1]) =
      .endOfData (.clls 1 2 1 [3]) 17 := by decide

theorem witness_CursorMovesForwardWithinTheInput :
    let s := inBlock .symbol [0x78, 0x9C, 0xCB, 0x48, 0xCD] 19 []
    after (coreStep s) bitOffset = some 27 ∧ bitOffset s ≤ 8 * s.inLen := by decide +kernel

theorem witness_ElementAdvancesByItsSize :
    let s := inBlock .symbol [0x78, 0x9C, 0xCB, 0x48, 0xCD] 19 []
    contextOf s = some .symFixed ∧ decode .symFixed (stream s) = .elem (.lit8c 24) 8 ∧ lenPart? (.lit8c 24) = none ∧
      after (exec (.lit8c 24) s) bitOffset = some 27 := by decide +kernel

/-- An aligned element behind a pad of 5 bits (R192), and a CL_16 with no length before it (R203). -/
theorem witness_ElementAdvancesByItsSize_pad :
    let s := inBlock .storedHdr [0x78, 0x01, 0x01, 0x05, 0x00, 0xFA, 0xFF, 0x68] 19 []
    let r := dynEntries 99 0
    (contextOf s = some (.sthdr 5) ∧ decode (.sthdr 5) (stream s) = .elem (.sthdr 5 0xFFFA) 37 ∧ padLen s = 5 ∧
      isByteAligned (.sthdr 5 0xFFFA) = true ∧ lenPart? (.sthdr 5 0xFFFA) = none ∧
      after (exec (.sthdr 5 0xFFFA) s) bitOffset = some 56) ∧
    (contextOf r = some (.clEntry clTable false) ∧ decode (.clEntry clTable false) (stream r) = .elem (.cl16 3 0) 3 ∧
      lenPart? (.cl16 3 0) = none ∧ r.lcnt = 0 ∧ after (exec (.cl16 3 0) r) bitOffset = some 102) := by decide +kernel

theorem witness_StepDoesNotDependOnBytesPastTheEnd :
    ∀ a, a < 1 → readByteAt [(0, 5), (1, 9)] a = readByteAt [(0, 5)] a := by decide

theorem witness_rooms :
    recordRoom State.reset ∧ itemRoom (inBlock .symbol [] 19 []) ∧ itemRoom State.reset ∧
      Params.reached State.reset.params.maxBlocks State.reset.blkCount = false ∧
      recordRoom { State.reset with params := small } :=
  ⟨⟨rfl, rfl⟩, rfl, rfl, rfl, rfl, rfl⟩

theorem witness_outRoom : outRoom 258 State.reset ∧ outRoom 2 { State.reset with params := small } := by
  refine ⟨fun _ _ => rfl, ?_⟩
  unfold outRoom
  decide

theorem witness_SthdrChecksTheComplement :
    (0x0000#16 ^^^ 0xFFFF#16 = 0xFFFF#16) ∧ (0x0005#16 ^^^ 0xFFFA#16 = 0xFFFF#16) ∧
      (0x0002#16 ^^^ 0xFFFC#16 ≠ 0xFFFF#16) := by decide

theorem witness_DynhdrBuildsTheCodeLengthTable :
    build ((cllOf [3, 0, 2, 3, 0, 0, 0, 0, 0, 0, 0, 0, 0, 3, 0, 2, 0, 3]).map BitVec.toNat) = some clTable ∧
      build ((cllOf [0, 0, 0, 0]).map BitVec.toNat) = none := by decide +kernel

theorem witness_ClLengthsGoToTheirOrder :
    ([] : List (BitVec 3)).length ≤ 19 ∧ (List.replicate 19 (1 : BitVec 3)).length ≤ 19 := by decide

/-- Counts 257 and 1, and how many lengths there are. -/
def counts (lcnt : Nat) : State :=
  { inBlock .dynLens [] 96 [] with hlit := 257, hdist := 1, lcnt := BitVec.ofNat 9 lcnt }

theorem witness_ClLenWritesOneLength :
    countsInRange (counts 257) ∧ (counts 257).lcnt.toNat < (counts 257).hlit.toNat + (counts 257).hdist.toNat ∧
      itemRoom (counts 257) := by
  unfold countsInRange itemRoom
  decide +kernel

theorem witness_ClRepeatWritesARun :
    countsInRange (counts 255) ∧ countsInRange (counts 120) ∧ (counts 255).lcnt ≠ 0 ∧
      (counts 255).lens[(counts 255).lcnt.toNat - 1]? = some 0 ∧
      (counts 255).lcnt.toNat + 3 ≤ (counts 255).hlit.toNat + (counts 255).hdist.toNat ∧
      (counts 120).lcnt.toNat + 138 ≤ (counts 120).hlit.toNat + (counts 120).hdist.toNat ∧
      itemRoom (counts 255) ∧ itemRoom (counts 120) := by
  unfold countsInRange itemRoom
  decide +kernel

theorem witness_ClRepeatErrors :
    (counts 0).lcnt = 0 ∧ (counts 256).lcnt ≠ 0 ∧
      (counts 256).hlit.toNat + (counts 256).hdist.toNat < (counts 256).lcnt.toNat + 3 ∧
      (counts 248).hlit.toNat + (counts 248).hdist.toNat < (counts 248).lcnt.toNat + 11 := by decide +kernel

theorem witness_DynTablesChecksInOrder :
    let s := { dynEntries 141 263 with lens := dynLengths }
    let bad := { dynEntries 141 263 with lens := (List.replicate 320 0).set 0 1 |>.set 259 1 }
    let badDist := { dynEntries 141 263 with lens := dynLengths.set 259 1 }
    (counts 257).lcnt.toNat < (counts 257).hlit.toNat + (counts 257).hdist.toNat ∧
      ¬ s.lcnt.toNat < s.hlit.toNat + s.hdist.toNat ∧ sliceEmpty (litLengths (counts 258)) = true ∧
      sliceEmpty (litLengths s) = false ∧ sliceEmpty (distLengths s) = false ∧
      build (litLengths s) = some litTable ∧ build (distLengths s) = some distTable ∧
      (sliceEmpty (litLengths bad) = false ∧ sliceEmpty (distLengths bad) = false ∧ build (litLengths bad) = none) ∧
      build (litLengths badDist) = some litTable ∧ build (distLengths badDist) = none := by decide +kernel

theorem witness_LiteralAppendsItsByte :
    litPart? (.lit8a 15) = some (8, 15) ∧ litPart? (.lit8b 63) = some (8, 79) ∧ litPart? (.lit8c 63) = some (8, 143) ∧
      litPart? (.lit9a 15) = some (9, 159) ∧ litPart? (.lit9b 31) = some (9, 191) ∧
      litPart? (.lit9c 63) = some (9, 255) ∧ litPart? (.litDyn 1 7) = some (1, 7) := by decide

theorem witness_DistanceCopiesFromTheOutput :
    wellFormed (.dist0 tableLenPart) = true ∧ distPart? (.dist0 tableLenPart) = some (tableLenPart, ⟨0, 5, 0⟩) ∧
      distBase 0 + 0 ≤ (inBlock .symbol [] 19 [0x61]).outLen ∧
      wellFormed (.dist4 tableLenPart 1) = true ∧
      distPart? (.dist4 tableLenPart 1) = some (tableLenPart, ⟨4, 5, 1⟩) ∧
      distBase 4 + 1 ≤ (inBlock .symbol [] 19 [1, 2, 3, 4, 5, 6]).outLen ∧
      wellFormed (.distDyn tableLenPart 1 29 0) = true ∧
      distPart? (.distDyn tableLenPart 1 29 0) = some (tableLenPart, ⟨29, 1, 0⟩) := by decide +kernel

theorem witness_DistancePastTheOutputRaises :
    wellFormed (.dist1 tableLenPart) = true ∧ distPart? (.dist1 tableLenPart) = some (tableLenPart, ⟨1, 5, 0⟩) ∧
      (inBlock .symbol [] 19 [0x61]).outLen < distBase 1 + 0 := by decide +kernel

/-- R92, R98: LEN_280 has a code of 8 bits and 4 extra bits. -/
theorem witness_LengthRunsTheWholeMatch_bits :
    decode .symFixed (bits [1, 1, 0, 0, 0, 0, 0, 0, 1, 0, 1, 0, 0]) = .elem (.len280 5) 12 ∧
      lenPart? (.len280 5) = some ⟨280, 5, 12⟩ ∧ decode (.symDyn litTable) (bits [0, 1, 1]) = .elem (.matchDyn 2 258 0) 2 ∧
      lenPart? (.matchDyn 2 258 0) = some ⟨258, 0, 2⟩ := by decide +kernel

theorem witness_LengthRunsTheWholeMatch :
    let s := inBlock .symbol [0x00] 0 [0x61]
    lenPart? .len257 = some tableLenPart ∧
      readCoded (distTableOf .len257 s) distExtra (stream (setCursor (bitOffset s + 3) s)) = .coded 0 5 0 ∧
      distBase 0 + 0 ≤ s.outLen ∧ lenPart? (.matchDyn 2 258 0) = some ⟨258, 0, 2⟩ ∧
      readCoded (distTableOf (.matchDyn 2 258 0) { s with distTab := distTable }) distExtra
        (stream (setCursor (bitOffset s + 2) s)) = .coded 1 1 0 := by decide +kernel

/-- What a MATCH that starts with LEN_257 reads behind its length half, with the output as given. -/
def behindLength (input output : List Byte) : Coded :=
  let s := inBlock .symbol input 0 output
  readCoded (distTableOf .len257 s) distExtra (stream (setCursor (bitOffset s + tableLenPart.bits) s))

theorem witness_MatchErrorsKeepTheBitsRead :
    lenPart? .len257 = some tableLenPart ∧ behindLength [0x80, 0x07] [0x61] = .coded 30 5 0 ∧
      (behindLength [0x00, 0x08] [0x61] = .coded 1 5 0 ∧ (inBlock .symbol [0x00, 0x08] 0 [0x61]).outLen < distBase 1 + 0) ∧
      behindLength [0x80, 0x0B] [0x61] = .endOfData 5 ∧ behindLength [0x80] [0x61] = .endOfData 1 := by decide +kernel

theorem witness_UnusableSymbolsRaiseInvalidHuffmanCode :
    after (exec .badLit286 State.reset) State.errPos = some 8 ∧ after (exec .badLit287 State.reset) State.errPos = some 8 ∧
      after (exec (.badLitDyn 3 286) State.reset) State.errPos = some 3 ∧
      after (exec (.badDist30 tableLenPart) State.reset) State.errPos = some 5 ∧
      after (exec (.badDist31 tableLenPart) State.reset) State.errPos = some 5 ∧
      after (exec (.badDistDyn tableLenPart 1 30) State.reset) State.errPos = some 1 ∧
      State.reset.blkOpen = false := by decide +kernel

theorem witness_RegistersChangeOnlyInTheirRows :
    after (exec .eob (inBlock .symbol [0x00] 0 [])) State.st = some .blockEnd ∧
      after (exec (.bhdrFixed true) State.reset) State.st = some .symbol := by decide +kernel

theorem witness_OutBytesChangeOnlyWhereAppended :
    Memory.wf (inBlock .symbol [0x00] 0 [0x61]).out ∧ appendsBytes .eob = false ∧
      after (exec (.stbyte 7) (inBlock .storedData [0x07] 0 [0x61])) State.outLen = some 2 ∧
      after (exec (.litDyn 1 7) (inBlock .symbol [0x07] 0 [0x61])) State.outLen = some 2 ∧
      after (exec (.dist0 tableLenPart) (inBlock .symbol [0x07] 0 [0x61])) State.outLen = some 4 ∧
      after (exec (.dist1 tableLenPart) (inBlock .symbol [0x07] 0 [0x61])) State.outLen = some 1 := by decide +kernel

theorem witness_ReadBitsIsLsbFirst :
    8 ≤ avail (at_ .idle [0xCB] 0) ∧ avail (at_ .idle [0xCB] 0) < 9 := by decide +kernel

theorem witness_ReadBytesAlignsAndReads :
    (at_ .idle [1, 2] 8).curBit = 0 ∧ (at_ .idle [1, 2] 1).curBit ≠ 0 ∧
      alignedByte (at_ .idle [1, 2] 1) + 1 ≤ (at_ .idle [1, 2] 1).inLen ∧
      (at_ .idle [1, 2] 1).inLen < alignedByte (at_ .idle [1, 2] 1) + 2 := by decide +kernel

theorem witness_BuildAssignsCanonicalCodes :
    (∀ x ∈ [15, 15, 14, 13, 12, 11, 10, 9, 8, 7, 6, 5, 4, 3, 2, 1], x ≤ 15) ∧
      (build [15, 15, 14, 13, 12, 11, 10, 9, 8, 7, 6, 5, 4, 3, 2, 1]).isSome = true ∧ build [1, 1, 1] = none ∧
      build [1] = none := by decide +kernel

theorem witness_DecodeFindsEveryCode : codesFit distTable ∧ prefixFree distTable ∧ ⟨1, 1, 3⟩ ∈ distTable := by
  refine ⟨?_, ?_, by decide⟩
  · unfold codesFit; decide
  · unfold prefixFree CodeEntry.isPrefixOf; decide

theorem witness_DecodeOfEncode :
    tablesBuilt .symFixed ∧ tablesBuilt (.distDyn distTable ⟨257, 0, 7⟩) ∧ wellFormed (.len284 31) = true ∧
      encode .symFixed (.len284 31) = some (bits [1, 1, 0, 0, 0, 1, 0, 0, 1, 1, 1, 1, 1]) ∧
      wellFormed (.distDyn ⟨257, 0, 7⟩ 1 3 0) = true ∧
      encode (.distDyn distTable ⟨257, 0, 7⟩) (.distDyn ⟨257, 0, 7⟩ 1 3 0) = some [true] :=
  ⟨trivial, ⟨[0, 1, 0, 1], by decide +kernel⟩, by decide +kernel, by decide +kernel, by decide +kernel, by decide +kernel⟩

theorem witness_EncodeOfDecode :
    tablesBuilt (.distDyn distTable ⟨257, 0, 7⟩) ∧ atCursor (.distDyn distTable ⟨257, 0, 7⟩) ∧
      decode (.distDyn distTable ⟨257, 0, 7⟩) (bits [1, 0, 0]) = .elem (.distDyn ⟨257, 0, 7⟩ 1 3 0) 1 ∧
      atCursor (.zhdr 0) :=
  ⟨⟨[0, 1, 0, 1], by decide +kernel⟩, by unfold atCursor; decide +kernel, by decide +kernel, rfl⟩

theorem witness_ResolveRepeatsWithItsDistance :
    1 ≤ 1 ∧ 1 ≤ (inBlock .symbol [] 0 [0x61]).outLen ∧ 2 ≤ (inBlock .symbol [] 0 [0x61, 0x62]).outLen := by
  decide +kernel

theorem witness_CopyEqualsByteAtATimeCopy :
    Memory.wf (inBlock .symbol [0x00] 0 [0x61]).out ∧
      distPart? (.dist0 tableLenPart) = some (tableLenPart, ⟨0, 5, 0⟩) ∧
      after (exec (.dist0 tableLenPart) (inBlock .symbol [0x00] 0 [0x61])) State.st = some .symbol := by decide +kernel

theorem witness_MemoryIsWhatItsReadsSay : Memory.wf [(0, 1), (5, 2)] ∧ Memory.wf [] := by decide

/-- An open record that takes no item, one byte of output, and the capacity of OUT as given. -/
def fullRecord (maxOut : Nat) : State :=
  { inBlock .symbol [0x00, 0x00] 0 [0x61] with
    params := { small with maxOut := some maxOut, maxItems := some 0 }, hlit := 257, hdist := 1, lcnt := 120 }

theorem witness_CapacityStopsAreWhole :
    Params.reached (fullRecord 1).params.maxBlocks (fullRecord 1).blkCount = true ∧
      (Params.reached (fullRecord 1).params.maxBlocks 0 = false ∧
        Params.reached (fullRecord 1).params.maxItems 0 = true) ∧
      ¬ outRoom 1 (fullRecord 1) ∧ litPart? (.litDyn 1 7) = some (1, 7) ∧
      (¬ itemRoom (fullRecord 2) ∧ outRoom 1 (fullRecord 2)) ∧
      ((fullRecord 1).lcnt ≠ 0 ∧
        (fullRecord 1).lcnt.toNat + (11 + 127) ≤ (fullRecord 1).hlit.toNat + (fullRecord 1).hdist.toNat) := by
  unfold outRoom itemRoom
  decide +kernel

/-- A MATCH of length 3 and distance 1 whose last byte does not fit, and one whose bytes fit but not its item. -/
theorem witness_CapacityStopsAreWhole_match :
    wellFormed (.dist0 tableLenPart) = true ∧ distPart? (.dist0 tableLenPart) = some (tableLenPart, ⟨0, 5, 0⟩) ∧
      distBase 0 + 0 ≤ (fullRecord 3).outLen ∧ lenPart? .len257 = some tableLenPart ∧
      readCoded (distTableOf .len257 (fullRecord 3)) distExtra
        (stream (setCursor (bitOffset (fullRecord 3) + tableLenPart.bits) (fullRecord 3))) = .coded 0 5 0 ∧
      ¬ outRoom (lenBase tableLenPart.sym + tableLenPart.extra) (fullRecord 3) ∧
      outRoom (lenBase tableLenPart.sym + tableLenPart.extra) (fullRecord 4) ∧ ¬ itemRoom (fullRecord 4) := by
  unfold outRoom itemRoom
  decide +kernel

theorem witness_CapacityStopsAreWhole_turn :
    coreStep { State.reset with host := [] } = .fault .noStep ∧
      coreStep { fullRecord 1 with inMem := [(0, 0x4C)], host := [] } = .fault .outFull := by
  constructor <;> rfl

theorem witness_BusyCoreStepsUnlessACapacityStopsIt :
    busy { State.reset with st := .zhdr } = true ∧ State.reset.host = [] ∧ State.reset.params = Params.reference ∧
      busy State.reset = false := by decide

theorem witness_BootStatesMeetTheInvariants : small.ok = true ∧ Params.reference.ok = true := by decide

/-- The state behind one empty fixed block, which stood at bits 16 to 26: the list holds two records. -/
def behindBlock : State :=
  { at_ .ztrl [0x78, 0x9C, 0x03, 0x00, 0x00, 0x00, 0x00, 0x01] 26 with
    zcmf := 0x78, zflg := 0x9C, hdrValid := true, bfinal := true, btype := 1, blkStart := 16, blkCount := 2
    trace :=
      [pseudoRecord 0 .zlibHeader (.zlibHeader 0x78 0x9C 8 7 28 0 2) 0 16 0,
        { openedRecord State.reset .fixedHuffman true with
          index := 1, startBit := 16
          items := [{ kind := .endOfBlock, bitStart := 19, bitEnd := 26, blockIndex := 1, itemIndex := 0 }]
          closed := some ⟨26, 2, 4, 2, 0, []⟩ }] }

theorem behindBlock_stateInv : StateInv behindBlock where
  zhdr h := absurd h (by decide)
  idle h := absurd h (by decide)
  started _ _ := by decide
  stored h := absurd h (by decide)
  dynamic h := absurd h (by decide)
  storedData h := absurd h (by decide)
  dynLens h := absurd h (by decide)
  dynTables h := absurd h (by decide)
  fixedSymbol h := absurd h (by decide)
  dynSymbol h := absurd h (by decide)
  blockEnd h := absurd h (by decide)
  ztrl _ := rfl

theorem behindBlock_inv : Inv behindBlock where
  params_ok := rfl
  inMem_wf := by decide +kernel
  out_wf := by decide
  out_below := fun _ h => nomatch h
  cll_length := rfl
  lens_length := List.length_replicate
  trace_length := rfl
  inLen_within := rfl
  outLen_within := rfl
  blkCount_within := rfl
  items_within := fun _ _ => rfl
  cursor_le := by decide +kernel
  open_iff := rfl
  error_iff := by decide
  error_zero := fun _ => ⟨rfl, rfl⟩
  header_iff := by decide
  trailer_iff := by decide
  byState := behindBlock_stateInv

/-- What holds of both records at their places holds of every record at its place. -/
theorem behindBlock_records {P : Nat → BlockRecord → Prop} (h0 : P 0 (behindBlock.trace[0]'(by decide)))
    (h1 : P 1 (behindBlock.trace[1]'(by decide))) :
    ∀ (i : Nat) (r : BlockRecord), behindBlock.trace[i]? = some r → P i r
  | 0, _, h => Option.some.inj h ▸ h0
  | 1, _, h => Option.some.inj h ▸ h1
  | _ + 2, _, h => nomatch h

/-- The same for membership. -/
theorem behindBlock_members {P : BlockRecord → Prop} (h0 : P (behindBlock.trace[0]'(by decide)))
    (h1 : P (behindBlock.trace[1]'(by decide))) : ∀ r ∈ behindBlock.trace, P r := fun r h =>
  match List.getElem?_of_mem h with
  | ⟨i, hi⟩ => behindBlock_records (P := fun _ r => P r) h0 h1 i r hi

theorem behindBlock_traceInv : TraceInv behindBlock where
  numbered := behindBlock_records rfl rfl
  itemsNumbered := behindBlock_members
    (fun | 0, _, h => Option.some.inj h ▸ ⟨rfl, rfl⟩ | _ + 1, _, h => nomatch h)
    (fun | 0, _, h => Option.some.inj h ▸ ⟨rfl, rfl⟩ | _ + 1, _, h => nomatch h)
  open_last := behindBlock_records (by decide) (by decide)
  partial_last := behindBlock_records (fun h => nomatch h) (fun h => nomatch h)
  closed_ok := behindBlock_members
    (fun _ h => Option.some.inj h ▸ ⟨rfl, rfl, rfl, rfl, by decide, rfl⟩)
    (fun _ h => Option.some.inj h ▸ ⟨rfl, rfl, rfl, rfl, by decide, rfl⟩)
  header_first := behindBlock_records (by decide) (by decide)
  header_span := fun _ h => Option.some.inj h ▸ ⟨rfl, rfl⟩
  trailer_last := behindBlock_records (by decide) (by decide)
  final_iff := behindBlock_members (by unfold isPseudo; decide) (by unfold isPseudo; decide)
  chain
    | 0, _, _, _, h, h', hc => Option.some.inj h' ▸ (Option.some.inj (Option.some.inj h ▸ hc : some _ = _) ▸ rfl)
    | 1, _, _, _, _, h', _ => nomatch h'
    | _ + 2, _, _, _, h, _, _ => nomatch h
  between _ _ h := Option.some.inj h ▸ rfl
  current h := nomatch h

theorem behindBlock_outInv : OutInv behindBlock where
  composition := rfl
  starts := behindBlock_records rfl rfl
  slices := behindBlock_members (fun _ h => Option.some.inj h ▸ ⟨rfl, rfl⟩) (fun _ h => Option.some.inj h ▸ ⟨rfl, rfl⟩)
  outIndexes := behindBlock_members
    (fun | 0, _, _, h, hk => by cases h; cases hk | _ + 1, _, _, h, _ => nomatch h)
    (fun | 0, _, _, h, hk => by cases h; cases hk | _ + 1, _, _, h, _ => nomatch h)

theorem witness_EveryStepKeepsTheInvariants :
    Inv behindBlock ∧ TraceInv behindBlock ∧ OutInv behindBlock ∧
      after (step behindBlock) (fun t => (t.st, t.blkCount)) = some (.done, 3) :=
  ⟨behindBlock_inv, behindBlock_traceInv, behindBlock_outInv, by decide +kernel⟩

theorem witness_EarlierRecordsNeverChange :
    Inv behindBlock ∧ after (coreStep behindBlock) State.blkCount = some 3 ∧ 0 + 1 < behindBlock.blkCount :=
  ⟨behindBlock_inv, by decide +kernel, by decide⟩

theorem witness_EveryDecodeEnds :
    let s := at_ .zhdr [0x78] 0
    s.host = [] ∧ s.st = .zhdr ∧ bitOffset s = 0 := by decide +kernel

theorem witness_ErrorIsLeftOnlyByStartOrReset :
    let s : State := { State.reset with st := .error, host := [.writeReg 0 1] }
    s.st = .error ∧ after (step s) State.st = some .done := by decide +kernel

end Sys2Proof.Tests
end

/-! # What each row answers

One rule for each row and shared element: the whole next state, where it answers one. -/

namespace Sys2Proof.Machine

/-! ## The cursor and the counters -/

@[simp] theorem advance_advance (a b : Nat) (s : State) : advance a (advance b s) = advance (b + a) s := by
  unfold advance
  rw [bitOffset_setCursor, Nat.add_assoc]
  rfl

theorem avail_advance (n : Nat) (s : State) : avail (advance n s) = avail s - n := by
  simp only [avail, advance_inLen, bitOffset_advance]
  omega

/-- A count below its capacity may grow by one. -/
theorem within_succ_of_not_reached {cap : Option Nat} {n : Nat} (h : Params.reached cap n = false) :
    Params.within cap (n + 1) = true := by
  cases cap with
  | none => rfl
  | some c => simpa [Params.reached, Params.within] using h

theorem within_zero (cap : Option Nat) : Params.within cap 0 = true := by cases cap <;> simp [Params.within]

/-! ## Bytes and items -/

/-- The state with the bytes `bs` behind the output (20_memory.md R77). -/
abbrev addBytes (bs : List Byte) (s : State) : State :=
  { s with out := writeBytesAt s.out s.outLen bs, outLen := s.outLen + bs.length }

/-- The state with an item from `start` to the cursor in the open record (45_engine.md R266). -/
abbrev recordItem (k : ItemKind) (start : Nat) (s : State) : State := modifyRecord (addItem k start (bitOffset s)) s

@[simp] theorem itemRoom_advance (n : Nat) (s : State) : itemRoom (advance n s) ↔ itemRoom s := Iff.rfl

theorem emitItem_eq_next {k : ItemKind} {a : Nat} {s t : State} :
    emitItem k a s = .next t ↔ itemRoom s ∧ t = recordItem k a s := emitItem_next

theorem outAppend_eq_next {b : Byte} {s t : State} :
    outAppend b s = .next t ↔ Params.reached s.params.maxOut s.outLen = false ∧ t = addBytes [b] s := outAppend_next

/-- A list of appends that answers a next state has added its bytes, and they fit. -/
theorem outAppendAll_eq_next {bs : List Byte} {s t : State} (h : outAppendAll bs s = .next t) :
    t = addBytes bs s ∧
      (Params.within s.params.maxOut s.outLen = true → Params.within t.params.maxOut t.outLen = true) := by
  refine ⟨outAppendAll_next h, ?_⟩
  induction bs generalizing s with
  | nil =>
    cases h
    exact id
  | cons b bs ih =>
    obtain ⟨u, hu, ht⟩ := andThen_next.mp h
    obtain ⟨hroom, rfl⟩ := outAppend_eq_next.mp hu
    exact fun _ => ih ht (within_succ_of_not_reached hroom)

/-! ## The rows -/

/-- A pseudo-block's record in closed form: no output byte belongs to it. -/
theorem pseudoBlock_eq (index : Nat) (kind : BlockKind) (item : ItemKind) (a b : Nat) (s : State) :
    pseudoBlock index kind item a b s = pseudoRecord index kind item a b s.outLen := by
  simp [pseudoBlock, pseudoRecord, closing, readBytesAt]

/-- Where ZHDR leads (42_zlib_envelope.md R171). -/
abbrev zhdrNext (cmf flg : Byte) (s : State) : State :=
  { skipBytes 2 s with
    zcmf := cmf, zflg := flg, hdrValid := true, blkCount := 1, st := .bhdr
    trace := s.trace ++
      [pseudoRecord 0 .zlibHeader
        (.zlibHeader cmf flg (cmOf cmf) (cinfoOf cmf) (fcheckOf flg) (fdictOf flg) (flevelOf flg))
        (bitOffset s) (bitOffset s + 16) s.outLen] }

theorem execZhdr_next {cmf flg : Byte} {s t : State} (h : execZhdr cmf flg s = .next t) :
    recordRoom s ∧ t = zhdrNext cmf flg s := by
  obtain ⟨u, hu, h⟩ := andThen_next.mp h
  rw [pseudoBlock_eq, appendRecord_next] at hu
  obtain ⟨hblocks, hitems, rfl⟩ := hu
  cases h
  exact ⟨⟨by simpa using hblocks, by simpa [pseudoRecord] using hitems⟩, by simp⟩

/-- The part of BHDR that all valid types share: the header read and a record opened (43_blocks.md R186). -/
abbrev blockBegun (final : Bool) (btype : BitVec 2) (s : State) : State :=
  { readBhdr final btype s with
    blkStart := bitOffset s, blkOutStart := s.outLen, blkCount := s.blkCount + 1, blkOpen := true
    trace := s.trace ++ [openedRecord s (blockKindOf btype) final] }

theorem beginBlock_next {final : Bool} {btype : BitVec 2} {s t : State} :
    beginBlock final btype s = .next t ↔
      Params.reached s.params.maxBlocks s.blkCount = false ∧ t = blockBegun final btype s := openBlock_next

theorem execBhdrStored_next {f : Bool} {s t : State} (h : execBhdrStored f s = .next t) :
    Params.reached s.params.maxBlocks s.blkCount = false ∧ t = { blockBegun f 0 s with st := .storedHdr } := by
  obtain ⟨u, hu, h⟩ := andThen_next.mp h
  obtain ⟨hroom, rfl⟩ := beginBlock_next.mp hu
  exact ⟨hroom, (Host.Outcome.next.inj h).symm⟩

theorem execBhdrFixed_next {f : Bool} {s t : State} (h : execBhdrFixed f s = .next t) :
    Params.reached s.params.maxBlocks s.blkCount = false ∧
      t = { blockBegun f 1 s with tsel := .fixed, st := .symbol } := by
  obtain ⟨u, hu, h⟩ := andThen_next.mp h
  obtain ⟨hroom, rfl⟩ := beginBlock_next.mp hu
  exact ⟨hroom, (Host.Outcome.next.inj h).symm⟩

theorem execBhdrDynamic_next {f : Bool} {s t : State} (h : execBhdrDynamic f s = .next t) :
    Params.reached s.params.maxBlocks s.blkCount = false ∧ t = { blockBegun f 2 s with st := .dynHdr } := by
  obtain ⟨u, hu, h⟩ := andThen_next.mp h
  obtain ⟨hroom, rfl⟩ := beginBlock_next.mp hu
  exact ⟨hroom, (Host.Outcome.next.inj h).symm⟩

/-- LEN and NLEN read, into their registers and the open record (43_blocks.md R192). -/
abbrev lengthsRead (len nlen : BitVec 16) (s : State) : State :=
  modifyRecord (fun r => { r with storedLen := some len, storedNLen := some nlen })
    { skipBytes 4 s with slen := len, snlen := nlen }

theorem execSthdr_next {len nlen : BitVec 16} {s t : State} (h : execSthdr len nlen s = .next t) :
    t = { lengthsRead len nlen s with srem := len, st := if len = 0 then .blockEnd else .storedData } ∨
      t = raise .invalidStoredBlock (lengthsRead len nlen s) := by
  unfold execSthdr at h
  split at h
  · exact .inl (Host.Outcome.next.inj h).symm
  · exact .inr (Host.Outcome.next.inj h).symm

/-- A literal's byte and its item, once its bits are passed (43_blocks.md R194, 44_symbols.md R231). -/
abbrev literalAdded (b : Byte) (start outIndex : Nat) (s : State) : State :=
  recordItem (.literal b outIndex) start (addBytes [b] s)

theorem execStbyte_next {b : Byte} {s t : State} (h : execStbyte b s = .next t) :
    Params.reached s.params.maxOut s.outLen = false ∧ itemRoom (addBytes [b] (skipBytes 1 s)) ∧
      t = { literalAdded b (bitOffset s) s.outLen (skipBytes 1 s) with
        srem := s.srem - 1, st := if s.srem - 1 = 0 then .blockEnd else s.st } := by
  obtain ⟨u, hu, h⟩ := andThen_next.mp h
  obtain ⟨v, hv, h⟩ := andThen_next.mp h
  obtain ⟨hout, rfl⟩ := outAppend_eq_next.mp hu
  obtain ⟨hitem, rfl⟩ := emitItem_eq_next.mp hv
  cases h
  exact ⟨by simpa using hout, hitem, by simp⟩

/-- The dynamic header read: counts and CLL written and the item emitted (43_blocks.md R200, R201). -/
abbrev dynHeaderRead (h d : BitVec 5) (c : BitVec 4) (cl : List (BitVec 3)) (s : State) : State :=
  recordItem (.dynamicHeader (hlitOf h) (hdistOf d) (hclenOf c) (cllOf cl)) (bitOffset s)
    { writeCounts h d c (advance (14 + 3 * cl.length) s) with cll := cllOf cl }

theorem execDynhdr_next {h d : BitVec 5} {c : BitVec 4} {cl : List (BitVec 3)} {s t : State}
    (hx : execDynhdr h d c cl s = .next t) :
    itemRoom s ∧
      (t = raise .invalidCodeLengths (dynHeaderRead h d c cl s) ∨
        ∃ tab, build ((cllOf cl).map BitVec.toNat) = some tab ∧
          t = { dynHeaderRead h d c cl s with clTab := tab, lcnt := 0, st := .dynLens }) := by
  obtain ⟨u, hu, hx⟩ := andThen_next.mp hx
  obtain ⟨hroom, rfl⟩ := emitItem_eq_next.mp hu
  refine ⟨hroom, ?_⟩
  split at hx
  · exact .inl (Host.Outcome.next.inj hx).symm
  · exact .inr ⟨_, ‹_›, (Host.Outcome.next.inj hx).symm⟩

/-- `r` lengths `v` written from LCNT on and their item emitted (43_blocks.md R202 to R204). -/
abbrev lengthsWritten (sym : Nat) (extra : Option Nat) (r : Nat) (v : BitVec 4) (start : Nat) (s : State) : State :=
  lensNext (recordItem (.dynamicCodeLengthEntry sym extra r v.toNat s.lcnt.toNat) start
    { s with lens := writeRun s.lens s.lcnt.toNat r v, lcnt := BitVec.ofNat 9 (s.lcnt.toNat + r) })

theorem writeLengths_next {sym r start : Nat} {extra : Option Nat} {v : BitVec 4} {s t : State}
    (h : writeLengths sym extra r v start s = .next t) :
    itemRoom s ∧ t = lengthsWritten sym extra r v start s := by
  obtain ⟨u, hu, h⟩ := andThen_next.mp h
  obtain ⟨hroom, rfl⟩ := emitItem_eq_next.mp hu
  exact ⟨hroom, (Host.Outcome.next.inj h).symm⟩

/-- A code-length row of `n` bits writes a run of lengths that fits the counts, or raises InvalidCodeLengths and writes
nothing. A single length, CL_LEN, is not checked (43_blocks.md R202 to R204). -/
def ClOutcome (n : Nat) (s t : State) : Prop :=
  t = raise .invalidCodeLengths (advance n s) ∨
    itemRoom s ∧ ∃ sym extra r v, 1 ≤ r ∧ r ≤ 138 ∧
      (r = 1 ∨ s.lcnt.toNat + r ≤ s.hlit.toNat + s.hdist.toNat) ∧
      t = lengthsWritten sym extra r v (bitOffset s) (advance n s)

theorem execClLen_next {n : Nat} {v : BitVec 4} {s t : State} (h : execClLen n v s = .next t) : ClOutcome n s t :=
  have ⟨hroom, ht⟩ := writeLengths_next h
  .inr ⟨hroom, _, _, 1, v, by omega, by omega, .inl rfl, ht⟩

theorem repeatLengths_next {sym extra r n : Nat} {v : BitVec 4} {s t : State} (h1 : 1 ≤ r) (h138 : r ≤ 138)
    (h : repeatLengths sym extra r v (bitOffset s) (advance n s) = .next t) : ClOutcome n s t := by
  unfold repeatLengths at h
  split at h
  · exact .inl (Host.Outcome.next.inj h).symm
  · obtain ⟨hroom, ht⟩ := writeLengths_next h
    exact .inr ⟨hroom, _, _, r, v, h1, h138, .inr (Nat.le_of_not_lt ‹_›), ht⟩

theorem execCl16_next {n : Nat} {e : BitVec 2} {s t : State} (h : execCl16 n e s = .next t) :
    ClOutcome (n + clExtra (s.lcnt != 0) 16) s t := by
  have he : e.toNat < 4 := e.isLt
  unfold execCl16 at h
  split at h
  next h0 =>
    rw [h0]
    exact .inl (Host.Outcome.next.inj h).symm
  next h0 =>
    rw [show clExtra (s.lcnt != 0) 16 = 2 by rw [bne_iff_ne.mpr h0]; rfl]
    exact repeatLengths_next (by omega) (by omega) h

theorem execCl17_next {n : Nat} {e : BitVec 3} {s t : State} (h : execCl17 n e s = .next t) : ClOutcome (n + 3) s t :=
  have he : e.toNat < 8 := e.isLt
  repeatLengths_next (by omega) (by omega) h

theorem execCl18_next {n : Nat} {e : BitVec 7} {s t : State} (h : execCl18 n e s = .next t) : ClOutcome (n + 7) s t :=
  have he : e.toNat < 128 := e.isLt
  repeatLengths_next (by omega) (by omega) h

theorem literalElement_next {n : Nat} {b : Byte} {s t : State} (h : literalElement n b s = .next t) :
    Params.reached s.params.maxOut s.outLen = false ∧ itemRoom s ∧
      t = literalAdded b (bitOffset s) s.outLen (advance n s) := by
  obtain ⟨u, hu, h⟩ := andThen_next.mp h
  obtain ⟨hout, rfl⟩ := outAppend_eq_next.mp hu
  obtain ⟨hitem, rfl⟩ := emitItem_eq_next.mp h
  exact ⟨hout, hitem, rfl⟩

theorem endOfBlockElement_next {n : Nat} {s t : State} (h : endOfBlockElement n s = .next t) :
    itemRoom s ∧ t = { recordItem .endOfBlock (bitOffset s) (advance n s) with st := .blockEnd } := by
  obtain ⟨u, hu, h⟩ := andThen_next.mp h
  obtain ⟨hitem, rfl⟩ := emitItem_eq_next.mp hu
  exact ⟨hitem, (Host.Outcome.next.inj h).symm⟩

/-- A distance half of `n` bits copies bytes that fit and emits an item from `start` on, or raises and writes nothing
(44_symbols.md R236, R241, R244). -/
def CopyOutcome (n start : Nat) (s t : State) : Prop :=
  (∃ e, e ≠ .none ∧ t = raise e (advance n s)) ∨
    ∃ len dist bs lsym lextra dsym dextra,
      (Params.within s.params.maxOut s.outLen = true → Params.within s.params.maxOut (s.outLen + bs.length) = true) ∧
      itemRoom s ∧
      t = recordItem (.backReference len dist bs lsym lextra dsym dextra s.outLen) start (addBytes bs (advance n s))

theorem copyElement_next {m : LenPart} {p : DistPart} {s t : State} (h : copyElement m p s = .next t) :
    CopyOutcome (p.codeBits + distExtra p.sym) (bitOffset s - m.bits) s t := by
  simp only [copyElement] at h
  split at h
  · exact .inl ⟨_, by decide, (Host.Outcome.next.inj h).symm⟩
  · obtain ⟨u, hu, h⟩ := andThen_next.mp h
    obtain ⟨rfl, hfit⟩ := outAppendAll_eq_next hu
    obtain ⟨hitem, rfl⟩ := emitItem_eq_next.mp h
    exact .inr ⟨_, _, _, _, _, _, _, hfit, hitem, rfl⟩

theorem badDistanceElement_next {n start : Nat} {s t : State} (h : badDistanceElement n s = .next t) :
    CopyOutcome n start s t :=
  .inl ⟨_, by decide, (Host.Outcome.next.inj h).symm⟩

theorem distanceElement_next {m : LenPart} {p : DistPart} {s t : State} (h : distanceElement m p s = .next t) :
    ∃ n ≤ p.codeBits + distExtra p.sym, CopyOutcome n (bitOffset s - m.bits) s t := by
  unfold distanceElement at h
  split at h
  · exact ⟨_, le_rfl, copyElement_next h⟩
  · exact ⟨_, Nat.le_add_right _ _, badDistanceElement_next h⟩

/-- A MATCH passes its length half and then at most the bits that are left (44_symbols.md R236, R249). -/
theorem matchElement_next {dt : HuffTable} {m : LenPart} {s t : State} (h : matchElement dt m s = .next t) :
    ∃ n ≤ avail s - m.bits, CopyOutcome (m.bits + n) (bitOffset s) s t := by
  have hlen : (stream (advance m.bits s)).length = avail s - m.bits := by rw [stream_length, avail_advance]
  simp only [matchElement] at h
  split at h
  · rename_i d n de hd
    obtain ⟨-, -, hbits, -⟩ := readCoded_coded hd
    rw [hlen] at hbits
    obtain ⟨k, hk, hout⟩ := distanceElement_next h
    refine ⟨k, Nat.le_trans hk hbits, ?_⟩
    simpa [CopyOutcome] using hout
  · rename_i n hn
    cases h
    exact ⟨n, hlen ▸ readCoded_short (.inl hn), .inl ⟨.unexpectedEndOfData, by decide, by simp⟩⟩
  · rename_i n hn
    cases h
    exact ⟨n, hlen ▸ readCoded_short (.inr hn), .inl ⟨.invalidHuffmanCode, by decide, by simp⟩⟩

/-- Where ZTRL leads (42_zlib_envelope.md R178). -/
abbrev ztrlNext (a : BitVec 32) (s : State) : State :=
  { skipBytes 4 s with
    adler := a, trlValid := true, blkCount := s.blkCount + 1, st := .done
    trace := s.trace ++
      [pseudoRecord s.blkCount .zlibTrailer (.zlibChecksum a) (bitOffset s + padLen s) (bitOffset s + padLen s + 32)
        s.outLen] }

theorem execZtrl_next {a : BitVec 32} {s t : State} (h : execZtrl a s = .next t) :
    recordRoom s ∧ t = ztrlNext a s := by
  have hend : bitOffset { skipBytes 4 s with adler := a, trlValid := true } = bitOffset s + padLen s + 32 :=
    bitOffset_skipBytes 4 s
  obtain ⟨u, hu, h⟩ := andThen_next.mp h
  rw [hend, Nat.add_sub_cancel, pseudoBlock_eq, appendRecord_next] at hu
  obtain ⟨hblocks, hitems, rfl⟩ := hu
  cases h
  exact ⟨⟨by simpa using hblocks, by simpa [pseudoRecord] using hitems⟩, by simp⟩

/-- DYN_TABLES builds both tables, or raises; then LIT_TAB may keep its new contents (43_blocks.md R205). -/
theorem dynTables_cases (s : State) :
    (∃ e lt, e ≠ .none ∧ dynTables s = raise e { s with litTab := lt }) ∨
      ∃ lt dt, build (litLengths s) = some lt ∧ build (distLengths s) = some dt ∧
        dynTables s = { s with litTab := lt, distTab := dt, tsel := .dyn, st := .symbol } := by
  unfold dynTables
  split
  · exact .inl ⟨_, s.litTab, by decide, rfl⟩
  split
  · exact .inl ⟨_, s.litTab, by decide, rfl⟩
  split
  · exact .inl ⟨_, s.litTab, by decide, rfl⟩
  next lt hlt =>
    split
    · exact .inl ⟨_, lt, by decide, rfl⟩
    next dt hdt => exact .inr ⟨lt, dt, hlt, hdt, rfl⟩

end Sys2Proof.Machine

/-! # What the decoder answers

How many bits each context's element takes, and which shared element its row runs. -/

namespace Sys2Proof.Machine

/-! ## From a row to its shared element -/

theorem exec_of_litPart {i : Instr} {n : Nat} {b : Byte} (h : litPart? i = some (n, b)) (s : State) :
    exec i s = literalElement n b s := by
  cases i <;> cases h <;> rfl

theorem exec_of_lenPart {i : Instr} {m : LenPart} (h : lenPart? i = some m) (s : State) :
    exec i s = matchElement (distTableOf i s) m s := by
  cases i <;> cases h <;> rfl

/-- A distance row copies, or raises as a symbol without a meaning. -/
theorem exec_of_distPart {i : Instr} {m : LenPart} {p : DistPart} (h : distPart? i = some (m, p)) (s : State) :
    exec i s = copyElement m p s ∨ exec i s = badDistanceElement p.codeBits s := by
  cases i with
  | badDist30 | badDist31 | badDistDyn => cases h; exact .inr rfl
  | _ => cases h <;> exact .inl rfl

/-- What a row of a literal/length table runs, by the number of bits it was decoded from. -/
inductive SymbolRow (s : State) : Nat → StepResult → Prop
  | literal (n : Nat) (b : Byte) : SymbolRow s n (literalElement n b s)
  | endOfBlock (n : Nat) : SymbolRow s n (endOfBlockElement n s)
  | badSymbol (n : Nat) : SymbolRow s n (badSymbolElement n s)
  | length (dt : HuffTable) (m : LenPart) : SymbolRow s m.bits (matchElement dt m s)

theorem symbolRow_of_litPart {i : Instr} {n : Nat} {b : Byte} (h : litPart? i = some (n, b)) (s : State) :
    SymbolRow s n (exec i s) := by
  rw [exec_of_litPart h]
  exact .literal n b

theorem symbolRow_of_lenPart {i : Instr} {m : LenPart} (h : lenPart? i = some m) (s : State) :
    SymbolRow s m.bits (exec i s) := by
  rw [exec_of_lenPart h]
  exact .length _ m

/-! ## The symbols of a table -/

/-- The symbol a lookup answers has an entry of that code length. -/
theorem lookupCode_mem {t : HuffTable} {code len sym : Nat} (h : lookupCode t code len = some sym) :
    ∃ e ∈ t, e.sym = sym ∧ e.len = len := by
  obtain ⟨e, he, rfl⟩ := Option.map_eq_some_iff.mp h
  have hp := List.find?_some he
  simp only [Bool.and_eq_true, beq_iff_eq] at hp
  exact ⟨e, List.mem_of_find?_eq_some he, rfl, hp.2⟩

theorem searchCode_mem {t : HuffTable} {fuel code n sym n' : Nat} {bs rest : Bits}
    (h : searchCode t fuel code n bs = .found sym n' rest) : ∃ e ∈ t, e.sym = sym ∧ e.len = n' := by
  induction fuel generalizing code n bs with
  | zero => cases h
  | succ fuel ih =>
    cases bs with
    | nil => cases h
    | cons b bs =>
      unfold searchCode at h
      split at h
      · cases h
        exact lookupCode_mem ‹_›
      · exact ih h

theorem readCoded_mem {t : HuffTable} {ext : Nat → Nat} {bs : Bits} {sym n e : Nat}
    (h : readCoded t ext bs = .coded sym n e) : ∃ f ∈ t, f.sym = sym ∧ f.len = n := by
  unfold readCoded at h
  split at h
  · cases h
  · cases h
  · split at h
    · cases h
      exact searchCode_mem ‹_›
    · cases h

/-- The code lengths of the fixed literal/length table (41_huffman.md R150). -/
def fixedCodeBits (sym : Nat) : Nat := if sym < 144 then 8 else if sym < 256 then 9 else fixedLenCodeBits sym

theorem fixLit_len {e : CodeEntry} (h : e ∈ fixLit) : e.sym < 288 ∧ e.len = fixedCodeBits e.sym := by
  simp only [fixLit, List.mem_append, List.mem_map, List.mem_range] at h
  unfold fixedCodeBits fixedLenCodeBits
  obtain ((⟨k, hk, rfl⟩ | ⟨k, hk, rfl⟩) | ⟨k, hk, rfl⟩) | ⟨k, hk, rfl⟩ := h
  · exact ⟨by simp only; omega, by rw [if_pos (by simp only; omega)]⟩
  · exact ⟨by simp only; omega, by rw [if_neg (by simp only; omega), if_pos (by simp only; omega)]⟩
  · exact ⟨by simp only; omega, by
      rw [if_neg (by simp only; omega), if_neg (by simp only; omega), if_pos (by simp only; omega)]⟩
  · exact ⟨by simp only; omega, by
      rw [if_neg (by simp only; omega), if_neg (by simp only; omega), if_neg (by simp only; omega)]⟩

/-- A literal, the end of block and a symbol past 285 have no extra bits (44_symbols.md R237). -/
theorem lenExtra_of_not_length {sym : Nat} (h : sym ≤ 256 ∨ 286 ≤ sym) : lenExtra sym = 0 := by
  unfold lenExtra
  obtain h | h := h
  · rw [Nat.sub_eq_zero_of_le (by omega)]
    rfl
  · rw [List.getD_eq_getElem?_getD, List.getElem?_eq_none (by simp [lenExtraTable]; omega)]
    rfl

/-! ## The rows of the fixed tables -/

theorem litPart_fixedLitInstr {sym : Nat} (h : sym < 256) :
    ∃ b, litPart? (fixedLitInstr sym) = some (fixedCodeBits sym, b) := by
  unfold fixedLitInstr fixedCodeBits
  by_cases h8 : sym < 144
  · rw [if_pos h8]
    repeat' split
    · exact ⟨_, rfl⟩
    · exact ⟨_, rfl⟩
    · exact ⟨_, rfl⟩
  · rw [if_neg (by omega), if_neg (by omega), if_neg h8, if_neg h8, if_pos h]
    repeat' split
    · exact ⟨_, rfl⟩
    · exact ⟨_, rfl⟩
    · exact ⟨_, rfl⟩

theorem lenPart_fixedLenInstr {sym : Nat} (e : Nat) (h : 257 ≤ sym) (h' : sym ≤ 285) :
    ∃ m, lenPart? (fixedLenInstr sym e) = some m ∧ m.bits = fixedCodeBits sym + lenExtra sym := by
  interval_cases sym <;> exact ⟨_, rfl, rfl⟩

theorem symbolRow_fixed {sym : Nat} (e : Nat) (h : sym < 288) (s : State) :
    SymbolRow s (fixedCodeBits sym + lenExtra sym) (exec (fixedSymInstr sym e) s) := by
  unfold fixedSymInstr
  split
  next hlit =>
    obtain ⟨b, hb⟩ := litPart_fixedLitInstr hlit
    rw [lenExtra_of_not_length (by omega)]
    exact symbolRow_of_litPart hb s
  next =>
    split
    next heob =>
      subst heob
      exact .endOfBlock 7
    next =>
      split
      next hlen =>
        obtain ⟨m, hm, hbits⟩ := lenPart_fixedLenInstr (sym := sym) e (by omega) hlen
        rw [← hbits]
        exact symbolRow_of_lenPart hm s
      next =>
        obtain rfl | rfl : sym = 286 ∨ sym = 287 := by omega
        · exact .badSymbol 8
        · exact .badSymbol 8

theorem symbolRow_dyn (n sym e : Nat) (s : State) : SymbolRow s (n + lenExtra sym) (exec (dynSymInstr n sym e) s) := by
  unfold dynSymInstr
  split
  next =>
    rw [lenExtra_of_not_length (by omega)]
    exact .literal n _
  next =>
    split
    next heob =>
      subst heob
      exact .endOfBlock n
    next =>
      split
      next => exact .length s.distTab ⟨sym, e, n + lenExtra sym⟩
      next =>
        rw [lenExtra_of_not_length (by omega)]
        exact .badSymbol n

/-! ## The decoder by context -/

/-- A coded element is a code and its extra bits, and all of them are there. -/
theorem finishCoded_elem {ext : Nat → Nat} {mk : Nat → Nat → Nat → Option Instr} {t : HuffTable} {bs : Bits}
    {i : Instr} {n : Nat} (h : finishCoded ext mk (readCoded t ext bs) = .elem i n) :
    ∃ sym k e, (∃ f ∈ t, f.sym = sym ∧ f.len = k) ∧ mk k sym e = some i ∧ n = k + ext sym ∧ 1 ≤ n ∧ n ≤ bs.length := by
  unfold finishCoded at h
  split at h
  · cases h
  · cases h
  · rename_i sym k e hc
    obtain ⟨h1, -, hlen, -⟩ := readCoded_coded hc
    split at h
    · cases h
      exact ⟨sym, k, e, readCoded_mem hc, ‹_›, rfl, by omega, hlen⟩
    · cases h

theorem decode_symFixed_elem {bs : Bits} {i : Instr} {n : Nat} (h : decode .symFixed bs = .elem i n) (s : State) :
    1 ≤ n ∧ n ≤ bs.length ∧ SymbolRow s n (exec i s) := by
  simp only [decode] at h
  obtain ⟨sym, k, e, ⟨f, hf, rfl, rfl⟩, hi, hn, h1, hlen⟩ := finishCoded_elem h
  cases hi
  obtain ⟨hlt, hk⟩ := fixLit_len hf
  refine ⟨h1, hlen, ?_⟩
  rw [hn, hk]
  exact symbolRow_fixed e hlt s

theorem decode_symDyn_elem {t : HuffTable} {bs : Bits} {i : Instr} {n : Nat} (h : decode (.symDyn t) bs = .elem i n)
    (s : State) : 1 ≤ n ∧ n ≤ bs.length ∧ SymbolRow s n (exec i s) := by
  simp only [decode] at h
  obtain ⟨sym, k, e, -, hi, hn, h1, hlen⟩ := finishCoded_elem h
  cases hi
  exact ⟨h1, hlen, hn ▸ symbolRow_dyn k sym e s⟩

/-- A code-length row has the outcome of its bits, where the decoder knew whether a length stands before it (log 9). -/
theorem decode_clEntry_elem {t : HuffTable} {bs : Bits} {i : Instr} {n : Nat} {s u : State}
    (h : decode (.clEntry t (s.lcnt != 0)) bs = .elem i n) (hx : exec i s = .next u) :
    1 ≤ n ∧ n ≤ bs.length ∧ ClOutcome n s u := by
  simp only [decode] at h
  obtain ⟨sym, k, e, -, hi, rfl, h1, hlen⟩ := finishCoded_elem h
  refine ⟨h1, hlen, ?_⟩
  unfold clInstr at hi
  split at hi
  next hlt =>
    cases hi
    have hext : clExtra (s.lcnt != 0) sym = 0 := by
      rw [clExtra, if_neg (by omega), if_neg (by omega), if_neg (by omega)]
    rw [hext]
    exact execClLen_next hx
  split at hi
  next h16 =>
    cases hi
    rw [h16]
    exact execCl16_next hx
  split at hi
  next h17 =>
    cases hi
    rw [h17]
    exact execCl17_next hx
  split at hi
  next h18 =>
    cases hi
    rw [h18]
    exact execCl18_next hx
  next => cases hi

theorem takeBytes_rest {n : Nat} {bs rest : Bits} {l : List Byte} (h : takeBytes n bs = some (l, rest)) :
    8 * n ≤ bs.length ∧ rest = bs.drop (8 * n) := by
  induction n generalizing bs l rest with
  | zero =>
    cases h
    exact ⟨Nat.zero_le _, rfl⟩
  | succ n ih =>
    unfold takeBytes at h
    split at h
    · cases h
    · rename_i v r hv
      obtain ⟨hlen, rfl, -⟩ := takeBits_rest hv
      split at h
      · rename_i l' r' hl
        cases h
        obtain ⟨hlen', rfl⟩ := ih hl
        rw [List.length_drop] at hlen'
        exact ⟨by omega, by rw [List.drop_drop]; congr 1; omega⟩
      · cases h

/-- Whole bytes behind a pad: the pad and the bytes are there. -/
theorem takeBytes_drop_le {n pad : Nat} {bs rest : Bits} {l : List Byte}
    (h : takeBytes (n + 1) (bs.drop pad) = some (l, rest)) : pad + 8 * (n + 1) ≤ bs.length := by
  have := (takeBytes_rest h).1
  rw [List.length_drop] at this
  omega

theorem takeLens_length (n : Nat) (bs : Bits) : 3 * (takeLens n bs).length ≤ bs.length := by
  induction n generalizing bs with
  | zero => exact Nat.zero_le _
  | succ n ih =>
    unfold takeLens
    split
    · rename_i v rest hv
      obtain ⟨hlen, rfl, -⟩ := takeBits_rest hv
      have := ih (bs.drop 3)
      rw [List.length_drop] at this
      simp only [List.length_cons]
      omega
    · exact Nat.zero_le _

theorem decodeZhdr_elem {pad n : Nat} {bs : Bits} {i : Instr} (h : decodeZhdr pad bs = .elem i n) :
    pad + 16 ≤ bs.length ∧ ∃ c f, i = .zhdr c f := by
  unfold decodeZhdr at h
  split at h
  · cases h
  · cases h
    exact ⟨takeBytes_drop_le ‹_›, _, _, rfl⟩

theorem decodeBhdr_elem {n : Nat} {bs : Bits} {i : Instr} (h : decodeBhdr bs = .elem i n) :
    3 ≤ bs.length ∧ ∃ f btype, i = bhdrInstr f btype := by
  unfold decodeBhdr at h
  split at h
  · cases h
  · rename_i v rest hv
    obtain ⟨hlen, rfl, -⟩ := takeBits_rest hv
    split at h
    · cases h
    · rename_i w rest' hw
      obtain ⟨hlen', -, -⟩ := takeBits_rest hw
      cases h
      rw [List.length_drop] at hlen'
      exact ⟨by omega, _, _, rfl⟩

theorem decodeSthdr_elem {pad n : Nat} {bs : Bits} {i : Instr} (h : decodeSthdr pad bs = .elem i n) :
    pad + 32 ≤ bs.length ∧ ∃ len nlen, i = .sthdr len nlen := by
  simp only [decodeSthdr] at h
  split at h
  · cases h
  · rename_i a rest ha
    have hpad := takeBytes_drop_le ha
    obtain ⟨-, rfl⟩ := takeBytes_rest ha
    split at h
    · cases h
    · rename_i b rest' hb
      cases h
      rw [List.drop_drop] at hb
      have := takeBytes_drop_le hb
      exact ⟨by omega, _, _, rfl⟩

theorem decodeStbyte_elem {pad n : Nat} {bs : Bits} {i : Instr} (h : decodeStbyte pad bs = .elem i n) :
    pad + 8 ≤ bs.length ∧ ∃ b, i = .stbyte b := by
  unfold decodeStbyte at h
  split at h
  · cases h
  · cases h
    exact ⟨takeBytes_drop_le ‹_›, _, rfl⟩

theorem decodeZtrl_elem {pad n : Nat} {bs : Bits} {i : Instr} (h : decodeZtrl pad bs = .elem i n) :
    pad + 32 ≤ bs.length ∧ ∃ a, i = .ztrl a := by
  unfold decodeZtrl at h
  split at h
  · cases h
  · cases h
    exact ⟨takeBytes_drop_le ‹_›, _, rfl⟩

theorem decodeDynhdr_elem {n : Nat} {bs : Bits} {i : Instr} (h : decodeDynhdr bs = .elem i n) :
    ∃ h d c cl, i = .dynhdr h d c cl ∧ 14 + 3 * cl.length ≤ bs.length := by
  unfold decodeDynhdr at h
  split at h
  · cases h
  rename_i v r1 h1
  obtain ⟨hlen1, rfl, -⟩ := takeBits_rest h1
  split at h
  · cases h
  rename_i d r2 h2
  obtain ⟨hlen2, rfl, -⟩ := takeBits_rest h2
  simp only at h
  split at h
  · cases h
  rename_i c r3 h3
  obtain ⟨hlen3, rfl, -⟩ := takeBits_rest h3
  simp only [List.length_drop] at hlen2 hlen3
  have hcl := takeLens_length (c + 4) (((bs.drop 5).drop 5).drop 4)
  simp only [List.length_drop] at hcl
  split at h
  · cases h
    exact ⟨_, _, _, _, rfl, by omega⟩
  · cases h

end Sys2Proof.Machine

/-! # What a core step can do

The one inversion of `coreStep`, from which the frames and the invariants are read off. -/

namespace Sys2Proof.Machine

/-! ## CLL -/

theorem length_foldl_set {α : Type} (ps : List (Nat × α)) (l : List α) :
    (ps.foldl (fun acc p => acc.set p.1 p.2) l).length = l.length := by
  induction ps generalizing l with
  | nil => rfl
  | cons p ps ih => simp [ih]

@[simp] theorem cllOf_length (cl : List (BitVec 3)) : (cllOf cl).length = 19 := by
  rw [cllOf, length_foldl_set, List.length_replicate]

/-! ## The moves -/

/-- `u` is `s` with at most the bits that are left consumed, and perhaps a header register, CLL or LIT_TAB rewritten:
what the reads before an error may have done (40_bitreader.md R128). -/
structure ReadsOnly (s u : State) : Prop where
  cursor : ∃ n ≤ avail s, bitOffset u = bitOffset s + n
  params : u.params = s.params
  inMem : u.inMem = s.inMem
  inLen : u.inLen = s.inLen
  out : u.out = s.out
  outLen : u.outLen = s.outLen
  lens : u.lens = s.lens
  cll : u.cll = s.cll ∨ u.cll.length = 19
  trace : u.trace = s.trace
  blkCount : u.blkCount = s.blkCount
  blkOpen : u.blkOpen = s.blkOpen
  hdrValid : u.hdrValid = s.hdrValid
  trlValid : u.trlValid = s.trlValid

theorem readsOnly_advance {n : Nat} {s : State} (h : n ≤ avail s) : ReadsOnly s (advance n s) where
  cursor := ⟨n, h, bitOffset_advance n s⟩
  params := rfl
  inMem := rfl
  inLen := rfl
  out := rfl
  outLen := rfl
  lens := rfl
  cll := .inl rfl
  trace := rfl
  blkCount := rfl
  blkOpen := rfl
  hdrValid := rfl
  trlValid := rfl

/-- A header register, CLL or LIT_TAB may be rewritten behind the reads. -/
theorem ReadsOnly.keepPartial {s u : State} (h : ReadsOnly s u) (p : PartialRead) : ReadsOnly s (keepPartial p u) where
  cursor := by rw [bitOffset_keepPartial]; exact h.cursor
  params := by rw [keepPartial_params, h.params]
  inMem := by rw [keepPartial_inMem, h.inMem]
  inLen := by rw [keepPartial_inLen, h.inLen]
  out := by rw [keepPartial_out, h.out]
  outLen := by rw [keepPartial_outLen, h.outLen]
  lens := by rw [keepPartial_lens, h.lens]
  cll := by
    cases p with
    | clls => exact .inr (cllOf_length _)
    | _ => exact h.cll
  trace := by rw [keepPartial_trace, h.trace]
  blkCount := by rw [keepPartial_blkCount, h.blkCount]
  blkOpen := by rw [keepPartial_blkOpen, h.blkOpen]
  hdrValid := by rw [keepPartial_hdrValid, h.hdrValid]
  trlValid := by rw [keepPartial_trlValid, h.trlValid]

theorem readsOnly_readBhdr {s : State} (f : Bool) (btype : BitVec 2) (h : 3 ≤ avail s) :
    ReadsOnly s (readBhdr f btype s) :=
  { readsOnly_advance h with }

theorem readsOnly_litTab (s : State) (t : HuffTable) : ReadsOnly s { s with litTab := t } :=
  { readsOnly_advance (Nat.zero_le (avail s)) with cursor := ⟨0, Nat.zero_le _, rfl⟩ }

/-- Everything a core step can do, one constructor for each outcome (45_engine.md R261). -/
inductive CoreMove (s : State) : State → Prop
  /-- The error entry behind reads that wrote no record and no output. -/
  | fail {e : ErrorCode} {u : State} (hbusy : busy s = true) (he : e ≠ .none) (hu : ReadsOnly s u) :
      CoreMove s (raise e u)
  | zhdr (cmf flg : Byte) (hst : s.st = .zhdr) (hbits : padLen s + 16 ≤ avail s) (hroom : recordRoom s) :
      CoreMove s (zhdrNext cmf flg s)
  | stored (f : Bool) (hst : s.st = .bhdr) (hbits : 3 ≤ avail s)
      (hroom : Params.reached s.params.maxBlocks s.blkCount = false) :
      CoreMove s { blockBegun f 0 s with st := .storedHdr }
  | fixed (f : Bool) (hst : s.st = .bhdr) (hbits : 3 ≤ avail s)
      (hroom : Params.reached s.params.maxBlocks s.blkCount = false) :
      CoreMove s { blockBegun f 1 s with tsel := .fixed, st := .symbol }
  | dynamic (f : Bool) (hst : s.st = .bhdr) (hbits : 3 ≤ avail s)
      (hroom : Params.reached s.params.maxBlocks s.blkCount = false) :
      CoreMove s { blockBegun f 2 s with st := .dynHdr }
  | lengths (len nlen : BitVec 16) (hst : s.st = .storedHdr) (hbits : padLen s + 32 ≤ avail s) :
      CoreMove s { lengthsRead len nlen s with srem := len, st := if len = 0 then .blockEnd else .storedData }
  | badLengths (len nlen : BitVec 16) (hst : s.st = .storedHdr) (hbits : padLen s + 32 ≤ avail s) :
      CoreMove s (raise .invalidStoredBlock (lengthsRead len nlen s))
  | storedByte (b : Byte) (hst : s.st = .storedData) (hbits : padLen s + 8 ≤ avail s)
      (hout : Params.reached s.params.maxOut s.outLen = false) (hroom : itemRoom s) :
      CoreMove s { literalAdded b (bitOffset s) s.outLen (skipBytes 1 s) with
        srem := s.srem - 1, st := if s.srem - 1 = 0 then .blockEnd else s.st }
  | dynHeader (h d : BitVec 5) (c : BitVec 4) (cl : List (BitVec 3)) (tab : HuffTable) (hst : s.st = .dynHdr)
      (hbits : 14 + 3 * cl.length ≤ avail s) (hroom : itemRoom s)
      (htab : build ((cllOf cl).map BitVec.toNat) = some tab) :
      CoreMove s { dynHeaderRead h d c cl s with clTab := tab, lcnt := 0, st := .dynLens }
  | badDynHeader (h d : BitVec 5) (c : BitVec 4) (cl : List (BitVec 3)) (hst : s.st = .dynHdr)
      (hbits : 14 + 3 * cl.length ≤ avail s) (hroom : itemRoom s) :
      CoreMove s (raise .invalidCodeLengths (dynHeaderRead h d c cl s))
  | run (n sym : Nat) (extra : Option Nat) (r : Nat) (v : BitVec 4) (hst : s.st = .dynLens) (hn : 1 ≤ n)
      (hbits : n ≤ avail s) (hroom : itemRoom s) (hr : 1 ≤ r) (hr' : r ≤ 138)
      (hfit : r = 1 ∨ s.lcnt.toNat + r ≤ s.hlit.toNat + s.hdist.toNat) :
      CoreMove s (lengthsWritten sym extra r v (bitOffset s) (advance n s))
  | tables (lt dt : HuffTable) (hst : s.st = .dynTables) (hlt : build (litLengths s) = some lt)
      (hdt : build (distLengths s) = some dt) :
      CoreMove s { s with litTab := lt, distTab := dt, tsel := .dyn, st := .symbol }
  | literal (n : Nat) (b : Byte) (hst : s.st = .symbol) (hn : 1 ≤ n) (hbits : n ≤ avail s)
      (hout : Params.reached s.params.maxOut s.outLen = false) (hroom : itemRoom s) :
      CoreMove s (literalAdded b (bitOffset s) s.outLen (advance n s))
  | copy (n len dist : Nat) (bs : List Byte) (lsym lextra dsym dextra : Nat) (hst : s.st = .symbol) (hn : 1 ≤ n)
      (hbits : n ≤ avail s)
      (hout : Params.within s.params.maxOut s.outLen = true →
        Params.within s.params.maxOut (s.outLen + bs.length) = true)
      (hroom : itemRoom s) :
      CoreMove s (recordItem (.backReference len dist bs lsym lextra dsym dextra s.outLen) (bitOffset s)
        (addBytes bs (advance n s)))
  | endOfBlock (n : Nat) (hst : s.st = .symbol) (hn : 1 ≤ n) (hbits : n ≤ avail s) (hroom : itemRoom s) :
      CoreMove s { recordItem .endOfBlock (bitOffset s) (advance n s) with st := .blockEnd }
  | blockEnd (hst : s.st = .blockEnd) : CoreMove s (blockEnd s)
  | ztrl (a : BitVec 32) (hst : s.st = .ztrl) (hbits : padLen s + 32 ≤ avail s) (hroom : recordRoom s) :
      CoreMove s (ztrlNext a s)

/-! ## The failing reads -/

theorem finishCoded_short {ext : Nat → Nat} {mk : Nat → Nat → Nat → Option Instr} {t : HuffTable} {bs : Bits}
    {p : PartialRead} {n : Nat}
    (h : finishCoded ext mk (readCoded t ext bs) = .endOfData p n ∨
      finishCoded ext mk (readCoded t ext bs) = .unusable n) : n ≤ bs.length := by
  cases hc : readCoded t ext bs with
  | endOfData k =>
    rw [hc] at h
    obtain h | h := h <;> cases h
    exact readCoded_short (.inl hc)
  | noMatch k =>
    rw [hc] at h
    obtain h | h := h <;> cases h
    exact readCoded_short (.inr hc)
  | coded sym k e =>
    rw [hc, finishCoded] at h
    obtain ⟨-, -, hlen, -⟩ := readCoded_coded hc
    split at h
    · obtain h | h := h <;> cases h
    · obtain h | h := h <;> cases h
      omega

theorem decodeBhdr_short {bs : Bits} {p : PartialRead} {n : Nat} (h : decodeBhdr bs = .endOfData p n) :
    n ≤ bs.length := by
  unfold decodeBhdr at h
  split at h
  · cases h
    exact Nat.zero_le _
  · obtain ⟨hlen, -, -⟩ := takeBits_rest ‹_›
    split at h <;> cases h
    exact hlen

theorem decodeSthdr_short {pad : Nat} {bs : Bits} {p : PartialRead} {n : Nat}
    (h : decodeSthdr pad bs = .endOfData p n) : n ≤ bs.length := by
  simp only [decodeSthdr] at h
  split at h
  · cases h
    exact Nat.zero_le _
  · have hlen := takeBytes_drop_le ‹_›
    split at h <;> cases h
    exact hlen

theorem decodeDynhdr_short {bs : Bits} {p : PartialRead} {n : Nat} (h : decodeDynhdr bs = .endOfData p n) :
    n ≤ bs.length := by
  simp only [decodeDynhdr] at h
  split at h
  · cases h
    exact Nat.zero_le _
  rename_i v r1 h1
  obtain ⟨hlen1, rfl, -⟩ := takeBits_rest h1
  split at h
  · cases h
    exact hlen1
  rename_i d r2 h2
  obtain ⟨hlen2, rfl, -⟩ := takeBits_rest h2
  rw [List.length_drop] at hlen2
  split at h
  · cases h
    omega
  rename_i c r3 h3
  obtain ⟨hlen3, rfl, -⟩ := takeBits_rest h3
  have hcl := takeLens_length (c + 4) (((bs.drop 5).drop 5).drop 4)
  simp only [List.length_drop] at hlen3 hcl
  split at h
  · cases h
  · cases h
    omega

/-- What fails to decode keeps no more bits than there are (40_bitreader.md R128). -/
theorem decode_short {ctx : Ctx} {bs : Bits} {p : PartialRead} {n : Nat}
    (h : decode ctx bs = .endOfData p n ∨ decode ctx bs = .unusable n) : n ≤ bs.length := by
  cases ctx with
  | zhdr pad =>
    simp only [decode, decodeZhdr] at h
    split at h <;> obtain h | h := h <;> cases h
    exact Nat.zero_le _
  | stbyte pad =>
    simp only [decode, decodeStbyte] at h
    split at h <;> obtain h | h := h <;> cases h
    exact Nat.zero_le _
  | ztrl pad =>
    simp only [decode, decodeZtrl] at h
    split at h <;> obtain h | h := h <;> cases h
    exact Nat.zero_le _
  | bhdr =>
    obtain h | h := h
    · exact decodeBhdr_short h
    · simp only [decode, decodeBhdr] at h
      repeat' split at h
      all_goals cases h
  | sthdr pad =>
    obtain h | h := h
    · exact decodeSthdr_short h
    · simp only [decode, decodeSthdr] at h
      repeat' split at h
      all_goals cases h
  | dynhdr =>
    obtain h | h := h
    · exact decodeDynhdr_short h
    · simp only [decode, decodeDynhdr] at h
      repeat' split at h
      all_goals cases h
  | clEntry | symFixed | symDyn | distFixed | distDyn =>
    simp only [decode] at h
    exact finishCoded_short h

/-! ## The moves by state -/

theorem busy_of_contextOf {s : State} {ctx : Ctx} (h : contextOf s = some ctx) : busy s = true := by
  unfold contextOf at h
  unfold busy
  split at h <;> simp_all

/-- An error behind `n` bits read. -/
theorem CoreMove.failAfter {s : State} {e : ErrorCode} {n : Nat} (hbusy : busy s = true) (he : e ≠ .none)
    (hbits : n ≤ avail s) : CoreMove s (raise e (advance n s)) :=
  .fail hbusy he (readsOnly_advance hbits)

theorem bhdr_move {s t : State} {f : Bool} {btype : Nat} (hst : s.st = .bhdr) (hbits : 3 ≤ avail s)
    (hx : exec (bhdrInstr f btype) s = .next t) : CoreMove s t := by
  unfold bhdrInstr at hx
  split at hx
  · obtain ⟨hroom, rfl⟩ := execBhdrStored_next hx
    exact .stored f hst hbits hroom
  · obtain ⟨hroom, rfl⟩ := execBhdrFixed_next hx
    exact .fixed f hst hbits hroom
  · obtain ⟨hroom, rfl⟩ := execBhdrDynamic_next hx
    exact .dynamic f hst hbits hroom
  · cases hx
    exact .fail (by simp [busy, hst]) (by decide) (readsOnly_readBhdr f 3 hbits)

theorem symbol_move {s t : State} {n : Nat} {o : StepResult} (hst : s.st = .symbol) (hn : 1 ≤ n) (hbits : n ≤ avail s)
    (hrow : SymbolRow s n o) (hx : o = .next t) : CoreMove s t := by
  have hbusy : busy s = true := by simp [busy, hst]
  cases hrow with
  | literal n b =>
    obtain ⟨hout, hroom, rfl⟩ := literalElement_next hx
    exact .literal n b hst hn hbits hout hroom
  | endOfBlock n =>
    obtain ⟨hroom, rfl⟩ := endOfBlockElement_next hx
    exact .endOfBlock n hst hn hbits hroom
  | badSymbol n =>
    cases hx
    exact .failAfter hbusy (by decide) hbits
  | length dt m =>
    obtain ⟨k, hk, ⟨e, he, rfl⟩ | ⟨len, dist, bs, lsym, lextra, dsym, dextra, hout, hroom, rfl⟩⟩ := matchElement_next hx
    · exact .failAfter hbusy he (by omega)
    · exact .copy _ len dist bs lsym lextra dsym dextra hst (by omega) (by omega) hout hroom

theorem dynLens_move {s t : State} {n : Nat} (hst : s.st = .dynLens) (hn : 1 ≤ n) (hbits : n ≤ avail s)
    (hx : ClOutcome n s t) : CoreMove s t := by
  obtain rfl | ⟨hroom, sym, extra, r, v, hr, hr', hfit, rfl⟩ := hx
  · exact .failAfter (by simp [busy, hst]) (by decide) hbits
  · exact .run n sym extra r v hst hn hbits hroom hr hr' hfit

theorem dynHdr_move {s t : State} {h d : BitVec 5} {c : BitVec 4} {cl : List (BitVec 3)} (hst : s.st = .dynHdr)
    (hbits : 14 + 3 * cl.length ≤ avail s) (hx : execDynhdr h d c cl s = .next t) : CoreMove s t := by
  obtain ⟨hroom, rfl | ⟨tab, htab, rfl⟩⟩ := execDynhdr_next hx
  · exact .badDynHeader h d c cl hst hbits hroom
  · exact .dynHeader h d c cl tab hst hbits hroom htab

/-- The move an element makes. -/
theorem elem_move {s t : State} {ctx : Ctx} {i : Instr} {n : Nat} (hctx : contextOf s = some ctx)
    (hd : decode ctx (stream s) = .elem i n) (hx : exec i s = .next t) : CoreMove s t := by
  have hlen := stream_length s
  unfold contextOf at hctx
  split at hctx
  · cases hctx
  · cases hctx
  · cases hctx
  · cases hctx
  · cases hctx
  next hst =>
    cases hctx
    obtain ⟨hbits, c, f, rfl⟩ := decodeZhdr_elem hd
    obtain ⟨hroom, rfl⟩ := execZhdr_next hx
    exact .zhdr c f hst (hlen ▸ hbits) hroom
  next hst =>
    cases hctx
    obtain ⟨hbits, f, btype, rfl⟩ := decodeBhdr_elem hd
    exact bhdr_move hst (hlen ▸ hbits) hx
  next hst =>
    cases hctx
    obtain ⟨hbits, len, nlen, rfl⟩ := decodeSthdr_elem hd
    obtain rfl | rfl := execSthdr_next hx
    · exact .lengths len nlen hst (hlen ▸ hbits)
    · exact .badLengths len nlen hst (hlen ▸ hbits)
  next hst =>
    cases hctx
    obtain ⟨hbits, b, rfl⟩ := decodeStbyte_elem hd
    obtain ⟨hout, hroom, rfl⟩ := execStbyte_next hx
    exact .storedByte b hst (hlen ▸ hbits) hout (by simpa [itemRoom, openItems] using hroom)
  next hst =>
    cases hctx
    obtain ⟨h, d, c, cl, rfl, hbits⟩ := decodeDynhdr_elem hd
    exact dynHdr_move hst (hlen ▸ hbits) hx
  next hst =>
    cases hctx
    obtain ⟨hn, hbits, hout⟩ := decode_clEntry_elem hd hx
    exact dynLens_move hst hn (hlen ▸ hbits) hout
  next hst =>
    split at hctx
    · cases hctx
      obtain ⟨hn, hbits, hrow⟩ := decode_symFixed_elem hd s
      exact symbol_move hst hn (hlen ▸ hbits) hrow hx
    · cases hctx
      obtain ⟨hn, hbits, hrow⟩ := decode_symDyn_elem hd s
      exact symbol_move hst hn (hlen ▸ hbits) hrow hx
  next hst =>
    cases hctx
    obtain ⟨hbits, a, rfl⟩ := decodeZtrl_elem hd
    obtain ⟨hroom, rfl⟩ := execZtrl_next hx
    exact .ztrl a hst (hlen ▸ hbits) hroom

theorem runDecoded_move {s t : State} {ctx : Ctx} (hctx : contextOf s = some ctx)
    (hx : runDecoded (decode ctx (stream s)) s = .next t) : CoreMove s t := by
  have hlen := stream_length s
  cases hd : decode ctx (stream s) with
  | elem i n =>
    rw [hd] at hx
    exact elem_move hctx hd hx
  | endOfData p n =>
    rw [hd] at hx
    cases hx
    exact .fail (busy_of_contextOf hctx) (by decide)
      ((readsOnly_advance (hlen ▸ decode_short (.inl hd))).keepPartial p)
  | unusable n =>
    rw [hd] at hx
    cases hx
    exact .failAfter (busy_of_contextOf hctx) (by decide) (hlen ▸ decode_short (p := .nothing) (.inr hd))

theorem dynTables_move {s : State} (hst : s.st = .dynTables) : CoreMove s (dynTables s) := by
  obtain ⟨e, lt, he, h⟩ | ⟨lt, dt, hlt, hdt, h⟩ := dynTables_cases s
  · rw [h]
    exact .fail (by simp [busy, hst]) he (readsOnly_litTab s lt)
  · rw [h]
    exact .tables lt dt hst hlt hdt

theorem coreStep_move {s t : State} (h : coreStep s = .next t) : CoreMove s t := by
  unfold coreStep at h
  split at h
  next hst =>
    cases h
    exact dynTables_move hst
  next hst =>
    cases h
    exact .blockEnd hst
  next =>
    cases hctx : contextOf s with
    | none => simp [fetch, hctx] at h
    | some ctx =>
      simp only [fetch, hctx, Option.map_some] at h
      exact runDecoded_move hctx h

end Sys2Proof.Machine

/-! # The cursor and the records under a core step -/

namespace Sys2Proof.Machine

/-- A core step consumes bits that are left, and IN_LEN stays (10_state.md R25). -/
theorem CoreMove.cursor {s t : State} (h : CoreMove s t) :
    (∃ n ≤ avail s, bitOffset t = bitOffset s + n) ∧ t.inLen = s.inLen := by
  have hskip (k : Nat) (hk : padLen s + 8 * k ≤ avail s) :
      ∃ n ≤ avail s, bitOffset (skipBytes k s) = bitOffset s + n :=
    ⟨_, hk, by rw [bitOffset_skipBytes, Nat.add_assoc]⟩
  cases h with
  | fail _ _ hu => exact ⟨by rw [bitOffset_raise]; exact hu.cursor, by rw [raise_inLen, hu.inLen]⟩
  | zhdr _ _ _ hbits => exact ⟨hskip 2 hbits, skipBytes_inLen 2 s⟩
  | stored _ _ hbits | fixed _ _ hbits | dynamic _ _ hbits => exact ⟨⟨3, hbits, bitOffset_advance 3 s⟩, rfl⟩
  | lengths _ _ _ hbits => exact ⟨hskip 4 hbits, skipBytes_inLen 4 s⟩
  | badLengths _ _ _ hbits => exact ⟨by rw [bitOffset_raise]; exact hskip 4 hbits, by simp⟩
  | storedByte _ _ hbits => exact ⟨hskip 1 hbits, skipBytes_inLen 1 s⟩
  | dynHeader _ _ _ _ _ _ hbits => exact ⟨⟨_, hbits, bitOffset_advance _ s⟩, rfl⟩
  | badDynHeader _ _ _ _ _ hbits => exact ⟨⟨_, hbits, by rw [bitOffset_raise]; exact bitOffset_advance _ s⟩, by simp⟩
  | run n _ _ _ _ _ _ hbits => exact ⟨⟨n, hbits, by rw [bitOffset_lensNext]; exact bitOffset_advance n s⟩, by simp⟩
  | literal n _ _ _ hbits | copy n _ _ _ _ _ _ _ _ _ hbits | endOfBlock n _ _ hbits =>
    exact ⟨⟨n, hbits, bitOffset_advance n s⟩, rfl⟩
  | tables | blockEnd => exact ⟨⟨0, Nat.zero_le _, rfl⟩, rfl⟩
  | ztrl _ _ hbits => exact ⟨hskip 4 hbits, skipBytes_inLen 4 s⟩

/-- Settles O14: every move consumes at most the bits that are left. -/
theorem cursorMovesForwardWithinTheInput : Obligations.CursorMovesForwardWithinTheInput := by
  intro s t h
  obtain ⟨⟨n, hn, hcur⟩, hlen⟩ := (coreStep_move h).cursor
  rw [hcur, hlen]
  unfold avail at hn
  exact ⟨Nat.le_add_right _ _, by omega⟩

/-- How a core step treats the block list: the first record of a decode, a record more, or a change of the last one. -/
theorem CoreMove.records {s t : State} (h : CoreMove s t) :
    s.st = .zhdr ∧ t.blkCount = 1 ∨
      (∃ r, t.trace = s.trace ++ [r]) ∧ t.blkCount = s.blkCount + 1 ∨
      (∃ f, t.trace = s.trace.modify (s.blkCount - 1) f) ∧ t.blkCount = s.blkCount := by
  have hraise (e : ErrorCode) (u : State) (hblk : u.blkCount = s.blkCount)
      (hu : ∃ f, u.trace = s.trace.modify (s.blkCount - 1) f) :
      ∃ f, (raise e u).trace = s.trace.modify (s.blkCount - 1) f := by
    obtain ⟨f, hf⟩ := hu
    rw [raise_trace, hblk, hf]
    split
    · exact ⟨_, List.modify_modify_eq _ _ _ _⟩
    · exact ⟨f, rfl⟩
  have hsame : s.trace = s.trace.modify (s.blkCount - 1) id := (List.modify_id _ _).symm
  cases h with
  | fail _ _ hu =>
    exact .inr (.inr ⟨hraise _ _ hu.blkCount ⟨id, hu.trace.trans hsame⟩, by rw [raise_blkCount, hu.blkCount]⟩)
  | zhdr _ _ hst => exact .inl ⟨hst, rfl⟩
  | stored | fixed | dynamic => exact .inr (.inl ⟨⟨_, rfl⟩, rfl⟩)
  | ztrl => exact .inr (.inl ⟨⟨_, rfl⟩, rfl⟩)
  | lengths | storedByte => exact .inr (.inr ⟨⟨_, by simp [modifyRecord]; rfl⟩, by simp⟩)
  | badLengths => exact .inr (.inr ⟨hraise _ _ (by simp) ⟨_, by simp [modifyRecord]; rfl⟩, by simp⟩)
  | badDynHeader => exact .inr (.inr ⟨hraise _ _ rfl ⟨_, rfl⟩, by simp⟩)
  | run => exact .inr (.inr ⟨⟨_, by rw [lensNext_trace]; rfl⟩, by simp⟩)
  | dynHeader | literal | copy | endOfBlock | blockEnd => exact .inr (.inr ⟨⟨_, rfl⟩, rfl⟩)
  | tables => exact .inr (.inr ⟨⟨id, hsame⟩, rfl⟩)

/-- Settles O40: a move appends a record or changes the last one. -/
theorem earlierRecordsNeverChange : Obligations.EarlierRecordsNeverChange := by
  intro s t hinv h
  obtain ⟨hst, hblk⟩ | ⟨⟨r, htrace⟩, hblk⟩ | ⟨⟨f, htrace⟩, hblk⟩ := (coreStep_move h).records
  · obtain ⟨-, hzero, -⟩ := hinv.byState.zhdr hst
    exact ⟨by omega, fun k hk => by omega⟩
  · refine ⟨by omega, fun k hk => ?_⟩
    rw [htrace, List.getElem?_append_left (by rw [hinv.trace_length]; omega)]
  · refine ⟨by omega, fun k hk => ?_⟩
    rw [htrace, List.getElem?_modify_ne _ _ (by omega)]

end Sys2Proof.Machine

/-! # The invariant of the state

`Inv` is split into the clauses that no value of ST bears on (`BaseInv`) and those that read ST. Each shared operation
keeps the first; each move of the core is then checked against the second. -/

namespace Sys2Proof.Machine

/-! ## The clauses no value of ST bears on -/

/-- The clauses of `Inv` about the memories, the arrays, the capacities and HDR_VALID. -/
structure BaseInv (s : State) : Prop where
  params_ok : s.params.ok = true
  inMem_wf : s.inMem.wf
  out_wf : s.out.wf
  out_below : cellsBelow s.outLen s.out
  cll_length : s.cll.length = 19
  lens_length : s.lens.length = 320
  trace_length : s.trace.length = s.blkCount
  inLen_within : Params.within s.params.maxIn s.inLen = true
  outLen_within : Params.within s.params.maxOut s.outLen = true
  blkCount_within : Params.within s.params.maxBlocks s.blkCount = true
  items_within : ∀ r ∈ s.trace, Params.within s.params.maxItems r.items.length = true
  header_iff : s.hdrValid = true ↔ 0 < s.blkCount

theorem Inv.base {s : State} (h : Inv s) : BaseInv s := { h with }

/-- The clauses read ten fields, of CLL and LENS only the length. -/
theorem BaseInv.congr {s t : State} (h : BaseInv s) (hparams : t.params = s.params := by simp)
    (hin : t.inMem = s.inMem := by simp) (hout : t.out = s.out := by simp) (houtLen : t.outLen = s.outLen := by simp)
    (hcll : t.cll.length = s.cll.length := by simp) (hlens : t.lens.length = s.lens.length := by simp)
    (htrace : t.trace = s.trace := by simp) (hblk : t.blkCount = s.blkCount := by simp)
    (hinLen : t.inLen = s.inLen := by simp) (hhdr : t.hdrValid = s.hdrValid := by simp) : BaseInv t where
  params_ok := by rw [hparams]; exact h.params_ok
  inMem_wf := by rw [hin]; exact h.inMem_wf
  out_wf := by rw [hout]; exact h.out_wf
  out_below := by rw [hout, houtLen]; exact h.out_below
  cll_length := by rw [hcll]; exact h.cll_length
  lens_length := by rw [hlens]; exact h.lens_length
  trace_length := by rw [htrace, hblk]; exact h.trace_length
  inLen_within := by rw [hparams, hinLen]; exact h.inLen_within
  outLen_within := by rw [hparams, houtLen]; exact h.outLen_within
  blkCount_within := by rw [hparams, hblk]; exact h.blkCount_within
  items_within := by rw [hparams, htrace]; exact h.items_within
  header_iff := by rw [hhdr, hblk]; exact h.header_iff

/-! ### Output -/

theorem cellsBelow_writeByteAt {n a : Nat} {m : Memory} {b : Byte} (h : cellsBelow n m) (ha : a < n) :
    cellsBelow n (writeByteAt m a b) := by
  intro c hc
  obtain rfl | hc := mem_writeByteAt hc
  · exact ha
  · exact h c hc

/-- Bytes written from the end on reach up to the new end. -/
theorem cellsBelow_writeBytesAt {n : Nat} {m : Memory} (bs : List Byte) (h : cellsBelow n m) :
    cellsBelow (n + bs.length) (writeBytesAt m n bs) := by
  induction bs generalizing n m with
  | nil => exact h
  | cons b bs ih =>
    have hm : cellsBelow (n + 1) m := fun c hc => Nat.lt_succ_of_lt (h c hc)
    have := ih (cellsBelow_writeByteAt (b := b) hm (Nat.lt_succ_self n))
    rwa [Nat.add_assoc, Nat.add_comm 1] at this

theorem BaseInv.addBytes {s : State} {bs : List Byte} (h : BaseInv s)
    (hfit : Params.within s.params.maxOut (s.outLen + bs.length) = true) : BaseInv (addBytes bs s) :=
  { h with
    out_wf := writeBytesAt_wf h.out_wf _ _
    out_below := cellsBelow_writeBytesAt bs h.out_below
    outLen_within := hfit }

/-! ### The block list -/

theorem mem_modify {α : Type} {l : List α} {i : Nat} {f : α → α} {x : α} (h : x ∈ l.modify i f) :
    x ∈ l ∨ ∃ y, l[i]? = some y ∧ x = f y := by
  obtain ⟨j, hj⟩ := List.getElem?_of_mem h
  by_cases hij : i = j
  · subst hij
    rw [List.getElem?_modify_eq] at hj
    obtain ⟨y, hy, rfl⟩ := Option.map_eq_some_iff.mp hj
    exact .inr ⟨y, hy, rfl⟩
  · rw [List.getElem?_modify_ne _ _ hij] at hj
    exact .inl (List.mem_of_getElem? hj)

/-- A change of the last record keeps the clauses when the record's items still fit. -/
theorem BaseInv.modifyRecord {s : State} {f : BlockRecord → BlockRecord} (h : BaseInv s)
    (hf : ∀ r, s.trace[s.blkCount - 1]? = some r → Params.within s.params.maxItems (f r).items.length = true) :
    BaseInv (modifyRecord f s) :=
  { h with
    trace_length := (List.length_modify _ _ _).trans h.trace_length
    items_within := fun r hr => by
      obtain hr | ⟨q, hq, rfl⟩ := mem_modify hr
      · exact h.items_within r hr
      · exact hf q hq }

theorem BaseInv.recordItem {s : State} {k : ItemKind} {a : Nat} (h : BaseInv s) (hroom : itemRoom s) :
    BaseInv (recordItem k a s) :=
  h.modifyRecord fun r hr => by
    simp only [itemRoom, openItems, hr, Option.map_some, Option.getD_some] at hroom
    simpa [addItem] using within_succ_of_not_reached hroom

/-- Bytes that fit and an item for which there is room. -/
theorem BaseInv.added {s : State} {k : ItemKind} {a : Nat} {bs : List Byte} (h : BaseInv s) (hroom : itemRoom s)
    (hfit : Params.within s.params.maxOut (s.outLen + bs.length) = true) :
    BaseInv (Machine.recordItem k a (Machine.addBytes bs s)) :=
  (h.addBytes hfit).recordItem hroom

theorem BaseInv.lengthsRead {s : State} (len nlen : BitVec 16) (h : BaseInv s) : BaseInv (lengthsRead len nlen s) :=
  (h.congr : BaseInv { skipBytes 4 s with slen := len, snlen := nlen }).modifyRecord fun r hr =>
    (h.congr : BaseInv (skipBytes 4 s)).items_within r (List.mem_of_getElem? hr)

theorem BaseInv.dynHeaderRead {s : State} (h d : BitVec 5) (c : BitVec 4) (cl : List (BitVec 3)) (hb : BaseInv s)
    (hroom : itemRoom s) : BaseInv (dynHeaderRead h d c cl s) :=
  (hb.congr (hcll := (cllOf_length cl).trans hb.cll_length.symm) :
    BaseInv { writeCounts h d c (advance (14 + 3 * cl.length) s) with cll := cllOf cl }).recordItem hroom

theorem BaseInv.closeRecord {s : State} (p : Bool) (h : BaseInv s) : BaseInv (closeRecord p s) :=
  (h.modifyRecord (f := fun r =>
      { r with
        isPartial := p || r.isPartial
        closed := some (closing s.out r.startBit (bitOffset s) r.outStart s.outLen) })
    fun r hr => h.items_within r (List.mem_of_getElem? hr)).congr rfl rfl rfl rfl rfl rfl rfl rfl rfl rfl

theorem BaseInv.raise {s : State} (e : ErrorCode) (h : BaseInv s) : BaseInv (raise e s) := by
  have h1 : BaseInv
      { s with errCode := e, errPos := bitOffset s, errBlk := if s.blkOpen then s.blkCount - 1 else s.blkCount } :=
    { h with }
  unfold Machine.raise
  split
  · exact { h1.closeRecord true with }
  · exact { h1 with }

/-- A record more keeps the clauses when it and its items fit and HDR_VALID is set. -/
theorem BaseInv.append {s t : State} {r : BlockRecord} (h : BaseInv s) (htrace : t.trace = s.trace ++ [r])
    (hroom : Params.reached s.params.maxBlocks s.blkCount = false)
    (hitems : Params.within s.params.maxItems r.items.length = true)
    (hblk : t.blkCount = s.blkCount + 1) (hhdr : t.hdrValid = true) (hparams : t.params = s.params := by simp)
    (hin : t.inMem = s.inMem := by simp) (hout : t.out = s.out := by simp) (houtLen : t.outLen = s.outLen := by simp)
    (hcll : t.cll = s.cll := by simp) (hlens : t.lens = s.lens := by simp) (hinLen : t.inLen = s.inLen := by simp) :
    BaseInv t where
  params_ok := by rw [hparams]; exact h.params_ok
  inMem_wf := by rw [hin]; exact h.inMem_wf
  out_wf := by rw [hout]; exact h.out_wf
  out_below := by rw [hout, houtLen]; exact h.out_below
  cll_length := by rw [hcll]; exact h.cll_length
  lens_length := by rw [hlens]; exact h.lens_length
  trace_length := by rw [htrace, hblk, List.length_append, h.trace_length]; rfl
  inLen_within := by rw [hparams, hinLen]; exact h.inLen_within
  outLen_within := by rw [hparams, houtLen]; exact h.outLen_within
  blkCount_within := by rw [hparams, hblk]; exact within_succ_of_not_reached hroom
  items_within := by
    rw [hparams, htrace]
    intro q hq
    obtain hq | hq := List.mem_append.mp hq
    · exact h.items_within q hq
    · rw [List.mem_singleton.mp hq]
      exact hitems
  header_iff := by simp [hhdr, hblk]

theorem BaseInv.readsOnly {s u : State} (h : BaseInv s) (hu : ReadsOnly s u) : BaseInv u :=
  h.congr hu.params hu.inMem hu.out hu.outLen
    (by
      obtain hc | hc := hu.cll
      · rw [hc]
      · rw [hc, h.cll_length])
    (by rw [hu.lens]) hu.trace hu.blkCount hu.inLen hu.hdrValid

/-! ## The clauses that read ST -/

/-- `StateInv` for one value of ST. -/
def StateClause (s : State) : CoreState → Prop
  | .idle => s.blkCount = 0 ∧ s.outLen = 0
  | .zhdr => bitOffset s = 0 ∧ s.blkCount = 0 ∧ s.outLen = 0
  | .bhdr => 0 < s.blkCount
  | .storedHdr => 0 < s.blkCount ∧ s.btype = 0
  | .storedData => 0 < s.blkCount ∧ s.btype = 0 ∧ s.srem ≠ 0 ∧ s.curBit = 0
  | .dynHdr => 0 < s.blkCount ∧ s.btype = 2
  | .dynLens => 0 < s.blkCount ∧ s.btype = 2 ∧ countsInRange s ∧ s.lcnt.toNat < s.hlit.toNat + s.hdist.toNat ∧
      build (s.cll.map BitVec.toNat) = some s.clTab
  | .dynTables => 0 < s.blkCount ∧ s.btype = 2 ∧ countsInRange s ∧ s.lcnt.toNat = s.hlit.toNat + s.hdist.toNat
  | .symbol => 0 < s.blkCount ∧ (s.tsel = .fixed → s.btype = 1) ∧
      (s.tsel = .dyn → s.btype = 2 ∧ countsInRange s ∧ build (litLengths s) = some s.litTab ∧
        build (distLengths s) = some s.distTab)
  | .blockEnd => 0 < s.blkCount ∧ (s.btype = 0 ∨ s.btype = 1 ∨ s.btype = 2)
  | .ztrl => 0 < s.blkCount ∧ s.bfinal = true
  | .done | .error => True

theorem stateInv_iff {s : State} : StateInv s ↔ StateClause s s.st := by
  constructor
  · intro h
    obtain ⟨hz, hi, hs, hst, hd, hsd, hdl, hdt, hf, hdy, hb, hzt⟩ := h
    cases hc : s.st <;> simp_all [StateClause, busy]
  · intro h
    cases hc : s.st <;> rw [hc] at h <;> constructor <;> simp_all [StateClause, busy]

theorem Inv.clause {s : State} {c : CoreState} (h : Inv s) (hst : s.st = c) : StateClause s c :=
  hst ▸ stateInv_iff.mp h.byState

/-- The error entry meets the invariant: ST = ERROR asks nothing of the registers the reads before it wrote. -/
theorem inv_raise {s : State} {e : ErrorCode} (h : BaseInv s) (htrl : s.trlValid = false) (he : e ≠ .none) :
    Inv (raise e s) :=
  { h.raise e with
    cursor_le := fun hb => nomatch hb
    open_iff := raise_blkOpen e s
    error_iff := by simp [he]
    error_zero := fun hst => absurd (raise_st e s) hst
    trailer_iff := by simp [htrl]
    byState := stateInv_iff.mpr (by rw [raise_st]; trivial) }

theorem st_of_busy {s : State} (h : busy s = true) : s.st ≠ .idle ∧ s.st ≠ .done ∧ s.st ≠ .error := by
  unfold busy at h
  split at h <;> simp_all

theorem Inv.trlValid_of_busy {s : State} (h : Inv s) (hbusy : busy s = true) : s.trlValid = false := by
  rw [← Bool.not_eq_true, h.trailer_iff]
  exact fun hdone => (st_of_busy hbusy).2.1 hdone.1

/-- From one state of a decode to another: the error registers and TRL_VALID stay, and the rest is checked. -/
theorem Inv.running {s t : State} (h : Inv s) (c : CoreState) (hbusy : busy s = true)
    (hcur : bitOffset t ≤ 8 * t.inLen) (hbase : BaseInv t) (hst : t.st = c) (hclause : StateClause t c)
    (hopen : t.blkOpen = blockIsOpen c) (hc : c ≠ .idle ∧ c ≠ .done ∧ c ≠ .error := by decide)
    (htrl : t.trlValid = s.trlValid := by simp) (hcode : t.errCode = s.errCode := by simp)
    (hpos : t.errPos = s.errPos := by simp) (hblk : t.errBlk = s.errBlk := by simp) : Inv t := by
  obtain ⟨-, -, herr⟩ := st_of_busy hbusy
  obtain ⟨-, hdone', herr'⟩ := hc
  exact
    { hbase with
      cursor_le := fun _ => hcur
      open_iff := by rw [hst, hopen]
      error_iff := by simp [hcode, h.error_iff.mpr herr, hst, herr']
      error_zero := fun _ => by rw [hpos, hblk]; exact h.error_zero herr
      trailer_iff := by simp [htrl, h.trlValid_of_busy hbusy, hst, hdone']
      byState := stateInv_iff.mpr (hst ▸ hclause) }

/-! ## The moves of the core -/

theorem CoreMove.busy {s t : State} (h : CoreMove s t) : busy s = true := by
  cases h with
  | fail hbusy => exact hbusy
  | _ => simp only [Machine.busy, *]

theorem writeRun_length (l : List (BitVec 4)) (i r : Nat) (v : BitVec 4) : (writeRun l i r v).length = l.length := by
  induction r generalizing l i with
  | zero => rfl
  | succ r ih => simp [writeRun, ih]

/-- The counts of a dynamic header are in range (10_state.md R22, 30_encoding.md R93). -/
theorem countsInRange_writeCounts {s : State} (h d : BitVec 5) (hlit : s.hlit = BitVec.ofNat 9 (hlitOf h))
    (hdist : s.hdist = BitVec.ofNat 6 (hdistOf d)) : countsInRange s ∧ 0 < s.hlit.toNat + s.hdist.toNat := by
  have hh := h.isLt
  have hd := d.isLt
  simp only [countsInRange, hlit, hdist, hlitOf, hdistOf, BitVec.toNat_ofNat]
  omega

/-- A run of lengths that fits the counts leads on in DYN_LENS, or to DYN_TABLES when it is the last. -/
theorem stateClause_run {s : State} {sym : Nat} {extra : Option Nat} {r start : Nat} {v : BitVec 4}
    (hst : s.st = .dynLens) (h : StateClause s .dynLens)
    (hfit : r = 1 ∨ s.lcnt.toNat + r ≤ s.hlit.toNat + s.hdist.toNat) :
    let t := lengthsWritten sym extra r v start s
    (t.st = .dynLens ∧ StateClause t .dynLens) ∨ (t.st = .dynTables ∧ StateClause t .dynTables) := by
  obtain ⟨hblk, hbtype, hcounts, hlcnt, hbuild⟩ := h
  have hcounts' := hcounts
  unfold countsInRange at hcounts'
  have hsum : (BitVec.ofNat 9 (s.lcnt.toNat + r)).toNat = s.lcnt.toNat + r := by
    rw [BitVec.toNat_ofNat]
    omega
  intro t
  unfold t lengthsWritten lensNext
  split
  next hlast => exact .inr ⟨rfl, hblk, hbtype, hcounts, hlast⟩
  next hmore =>
    simp only [modifyRecord_lcnt, modifyRecord_hlit, modifyRecord_hdist, hsum] at hmore
    refine .inl ⟨hst, hblk, hbtype, hcounts, ?_, hbuild⟩
    simp only [modifyRecord_lcnt, modifyRecord_hlit, modifyRecord_hdist, hsum]
    omega

theorem itemRoom_congr {s t : State} (h : itemRoom s) (hparams : t.params = s.params := by simp)
    (htrace : t.trace = s.trace := by simp) (hblk : t.blkCount = s.blkCount := by simp) : itemRoom t := by
  simpa only [itemRoom, openItems, hparams, htrace, hblk] using h

theorem inv_coreMove {s t : State} (h : Inv s) (hm : CoreMove s t) : Inv t := by
  have hbusy := hm.busy
  have htrl := h.trlValid_of_busy hbusy
  have hcur : bitOffset t ≤ 8 * t.inLen := by
    obtain ⟨⟨n, hn, hcur⟩, hlen⟩ := hm.cursor
    have := h.cursor_le hbusy
    unfold avail at hn
    rw [hcur, hlen]
    omega
  have hopen := h.open_iff
  cases hm with
  | fail _ he hu => exact inv_raise (h.base.readsOnly hu) (hu.trlValid.trans htrl) he
  | zhdr c f hst _ hroom =>
    obtain ⟨-, hblk, -⟩ := h.clause hst
    exact h.running .bhdr hbusy hcur
      (h.base.append rfl hroom.1 (within_succ_of_not_reached hroom.2) (by simp [hblk]) rfl) rfl Nat.one_pos
      (by simp [hopen, hst, blockIsOpen])
  | stored f hst _ hroom =>
    have hhdr := h.header_iff.mpr (h.clause hst)
    exact h.running .storedHdr hbusy hcur (h.base.append rfl hroom (within_zero _) rfl hhdr) rfl
      ⟨Nat.succ_pos _, rfl⟩ rfl
  | fixed f hst _ hroom =>
    have hhdr := h.header_iff.mpr (h.clause hst)
    exact h.running .symbol hbusy hcur (h.base.append rfl hroom (within_zero _) rfl hhdr) rfl
      ⟨Nat.succ_pos _, fun _ => rfl, fun hdyn => nomatch hdyn⟩ rfl
  | dynamic f hst _ hroom =>
    have hhdr := h.header_iff.mpr (h.clause hst)
    exact h.running .dynHdr hbusy hcur (h.base.append rfl hroom (within_zero _) rfl hhdr) rfl
      ⟨Nat.succ_pos _, rfl⟩ rfl
  | lengths len nlen hst =>
    obtain ⟨hblk, hbtype⟩ := h.clause hst
    have hbase := h.base.lengthsRead len nlen
    have hopen' : s.blkOpen = true := by rw [hopen, hst]; rfl
    by_cases hlen : len = 0
    · exact h.running .blockEnd hbusy hcur { hbase with } (if_pos hlen)
        ⟨by simpa using hblk, .inl (by simpa using hbtype)⟩ (by simp [hopen', blockIsOpen])
    · exact h.running .storedData hbusy hcur { hbase with } (if_neg hlen)
        ⟨by simpa using hblk, by simpa using hbtype, hlen, by simp⟩ (by simp [hopen', blockIsOpen])
  | badLengths len nlen hst => exact inv_raise (h.base.lengthsRead len nlen) (by simpa using htrl) (by decide)
  | storedByte b hst _ hout hroom =>
    obtain ⟨hblk, hbtype, hsrem, hcur'⟩ := h.clause hst
    have hbase : BaseInv (literalAdded b (bitOffset s) s.outLen (skipBytes 1 s)) :=
      (h.base.congr : BaseInv (skipBytes 1 s)).added (itemRoom_congr hroom)
        (by simpa using within_succ_of_not_reached hout)
    have hopen' : s.blkOpen = true := by rw [hopen, hst]; rfl
    by_cases hlast : s.srem - 1 = 0
    · exact h.running .blockEnd hbusy hcur { hbase with } (if_pos hlast)
        ⟨by simpa using hblk, .inl (by simpa using hbtype)⟩ (by simp [hopen', blockIsOpen])
    · exact h.running .storedData hbusy hcur { hbase with } ((if_neg hlast).trans hst)
        ⟨by simpa using hblk, by simpa using hbtype, hlast, by simp⟩ (by simp [hopen', blockIsOpen])
  | dynHeader hl hd hc cl tab hst _ hroom htab =>
    obtain ⟨hblk, hbtype⟩ := h.clause hst
    obtain ⟨hcounts, hpos⟩ := countsInRange_writeCounts (s := writeCounts hl hd hc s) hl hd rfl rfl
    exact h.running .dynLens hbusy hcur { h.base.dynHeaderRead hl hd hc cl hroom with } rfl
      ⟨hblk, hbtype, hcounts, hpos, htab⟩ (by simp [hopen, hst, blockIsOpen])
  | badDynHeader hl hd hc cl hst _ hroom =>
    exact inv_raise (h.base.dynHeaderRead hl hd hc cl hroom) (by simpa using htrl) (by decide)
  | run n sym extra r v hst _ _ hroom hr hr' hfit =>
    have hbase : BaseInv (lengthsWritten sym extra r v (bitOffset s) (advance n s)) :=
      ((h.base.congr (hlens := writeRun_length _ _ _ _) :
        BaseInv { advance n s with
          lens := writeRun s.lens s.lcnt.toNat r v, lcnt := BitVec.ofNat 9 (s.lcnt.toNat + r) }).recordItem
        (k := .dynamicCodeLengthEntry sym extra r v.toNat s.lcnt.toNat) (a := bitOffset s) hroom).congr
    obtain ⟨hst', hclause⟩ | ⟨hst', hclause⟩ :=
      stateClause_run (s := advance n s) (sym := sym) (extra := extra) (start := bitOffset s) (v := v) hst
        (h.clause hst) hfit
    · exact h.running .dynLens hbusy hcur hbase hst' hclause (by simp [hopen, hst, blockIsOpen])
    · exact h.running .dynTables hbusy hcur hbase hst' hclause (by simp [hopen, hst, blockIsOpen])
  | tables lt dt hst hlt hdt =>
    obtain ⟨hblk, hbtype, hcounts, -⟩ := h.clause hst
    exact h.running .symbol hbusy hcur { h.base with } rfl
      ⟨hblk, fun hfixed => (nomatch hfixed), fun _ => ⟨hbtype, hcounts, hlt, hdt⟩⟩ (by rw [hopen, hst]; rfl)
  | literal n b hst _ _ hout hroom =>
    exact h.running .symbol hbusy hcur
      ((h.base.congr : BaseInv (advance n s)).added hroom (within_succ_of_not_reached hout)) hst
      (h.clause hst) (by simp [hopen, hst, blockIsOpen])
  | copy n len dist bs lsym lextra dsym dextra hst _ _ hout hroom =>
    exact h.running .symbol hbusy hcur
      ((h.base.congr : BaseInv (advance n s)).added hroom (hout h.outLen_within)) hst
      (h.clause hst) (by simp [hopen, hst, blockIsOpen])
  | endOfBlock n hst _ _ hroom =>
    obtain ⟨hblk, hfixed, hdyn⟩ := h.clause hst
    have hbtype : s.btype = 0 ∨ s.btype = 1 ∨ s.btype = 2 := by
      cases htsel : s.tsel with
      | fixed => exact .inr (.inl (hfixed htsel))
      | dyn => exact .inr (.inr (hdyn htsel).1)
    exact h.running .blockEnd hbusy hcur { (h.base.congr : BaseInv (advance n s)).recordItem hroom with } rfl
      ⟨hblk, hbtype⟩ (by simp [hopen, hst, blockIsOpen])
  | blockEnd hst =>
    obtain ⟨hblk, -⟩ := h.clause hst
    have hbase : BaseInv (blockEnd s) := { h.base.closeRecord false with }
    cases hfinal : s.bfinal with
    | true => exact h.running .ztrl hbusy hcur hbase (if_pos hfinal) ⟨hblk, hfinal⟩ rfl
    | false => exact h.running .bhdr hbusy hcur hbase (if_neg (by simp [hfinal])) hblk rfl
  | ztrl a hst _ hroom =>
    obtain ⟨hblk, -⟩ := h.clause hst
    have hhdr := h.header_iff.mpr hblk
    obtain ⟨-, -, herr⟩ := st_of_busy hbusy
    exact
      { h.base.append (t := ztrlNext a s) rfl hroom.1 (within_succ_of_not_reached hroom.2) rfl
          (by simpa using hhdr) with
        cursor_le := fun hb => nomatch hb
        open_iff := by simp [hopen, hst, blockIsOpen]
        error_iff := by simp [h.error_iff.mpr herr]
        error_zero := fun _ => by simpa using h.error_zero herr
        trailer_iff := by simp
        byState := stateInv_iff.mpr trivial }

end Sys2Proof.Machine

/-! # The moves of the host, and every step -/

namespace Sys2Proof.Machine

/-! ## States in which nothing has been decoded -/

/-- What reset and START leave: no output, no record and no error (10_state.md R54, 45_engine.md R262). -/
structure Fresh (s : State) : Prop where
  st : s.st = .idle ∨ s.st = .zhdr ∨ s.st = .done
  cursor : bitOffset s = 0
  out : s.out = []
  outLen : s.outLen = 0
  cll : s.cll = List.replicate 19 0
  trace : s.trace = []
  blkCount : s.blkCount = 0
  blkOpen : s.blkOpen = false
  hdrValid : s.hdrValid = false
  trlValid : s.trlValid = false
  errCode : s.errCode = .none
  errPos : s.errPos = 0
  errBlk : s.errBlk = 0

theorem fresh_bootState (p : Params) (moves : List HostMove) : Fresh (bootState p moves) := by
  constructor
  case st => exact .inl rfl
  all_goals rfl

theorem fresh_hostReset (s : State) : Fresh (hostReset s) := by
  constructor <;> simp [bitOffset]

theorem fresh_startDecode (s : State) : Fresh (startDecode s) := by
  constructor
  case st => by_cases h : s.inLen > 0 <;> simp [h]
  all_goals simp [bitOffset]

/-- A fresh state meets the invariant of the state where its parameters, input and arrays do. -/
theorem Fresh.inv {s : State} (h : Fresh s) (hparams : s.params.ok = true) (hin : s.inMem.wf)
    (hinLen : Params.within s.params.maxIn s.inLen = true) (hlens : s.lens.length = 320) : Inv s where
  params_ok := hparams
  inMem_wf := hin
  out_wf := h.out ▸ wf_nil
  out_below := by simp [cellsBelow, h.out]
  cll_length := by rw [h.cll, List.length_replicate]
  lens_length := hlens
  trace_length := by rw [h.trace, h.blkCount]; rfl
  inLen_within := hinLen
  outLen_within := h.outLen ▸ within_zero _
  blkCount_within := h.blkCount ▸ within_zero _
  items_within := by simp [h.trace]
  cursor_le := fun _ => h.cursor ▸ Nat.zero_le _
  open_iff := by
    obtain hst | hst | hst := h.st <;> rw [h.blkOpen, hst] <;> rfl
  error_iff := by
    obtain hst | hst | hst := h.st <;> simp [h.errCode, hst]
  error_zero := fun _ => ⟨h.errPos, h.errBlk⟩
  header_iff := by simp [h.hdrValid, h.blkCount]
  trailer_iff := by simp [h.trlValid, h.blkCount]
  byState := by
    refine stateInv_iff.mpr ?_
    obtain hst | hst | hst := h.st <;> simp [hst, StateClause, h.cursor, h.blkCount, h.outLen]

/-! ## The step -/

/-- The invariant does not read the waiting moves. -/
theorem Inv.withHost {s : State} (h : Inv s) (ms : List HostMove) : Inv { s with host := ms } :=
  { h with byState := { h.byState with } }

theorem writeInByte_next {a : Nat} {b : Byte} {s t : State} (h : writeInByte a b s = .next t) :
    busy s = false ∧ t = { s with inMem := writeByteAt s.inMem a b } := by
  unfold writeInByte at h
  split at h
  · cases h
  · split at h
    · cases h
    · cases h
      exact ⟨by simpa using ‹¬ busy s = true›, rfl⟩

/-- A register write resets, starts a decode, sets IN_LEN within its bound while no decode runs, or changes nothing. -/
theorem writeHostReg_cases (i v : Nat) (s : State) :
    writeHostReg i v s = hostReset s ∨ writeHostReg i v s = startDecode s ∨
      (∃ n, busy s = false ∧ Params.within s.params.maxIn n = true ∧ writeHostReg i v s = { s with inLen := n }) ∨
      writeHostReg i v s = s := by
  unfold writeHostReg
  split
  · unfold writeCtrl
    split
    · exact .inl rfl
    · split
      · exact .inr (.inl rfl)
      · exact .inr (.inr (.inr rfl))
  · unfold writeInLen
    split
    · exact .inr (.inr (.inr rfl))
    · split
      · exact .inr (.inr (.inl ⟨_, by simpa using ‹¬ busy s = true›, ‹_›, rfl⟩))
      · exact .inr (.inr (.inr rfl))
  · exact .inr (.inr (.inr rfl))

/-- Everything a step of the machine can do: from the state with the move taken off the list, a core step, a write of a
byte of IN or of a register, or nothing (45_engine.md R260, R275). -/
theorem step_cases {s t : State} (h : step s = .next t) :
    ∃ ms, CoreMove { s with host := ms } t ∨
      (∃ a b, busy s = false ∧ t = { s with host := ms, inMem := writeByteAt s.inMem a b }) ∨
      (∃ i v, t = writeHostReg i v { s with host := ms }) ∨ t = { s with host := ms } := by
  unfold step engineStep at h
  split at h
  next hhost =>
    refine ⟨[], .inl ?_⟩
    rw [← hhost]
    exact coreStep_move h
  next m ms hhost =>
    refine ⟨ms, ?_⟩
    cases m with
    | writeIn a b =>
      obtain ⟨hbusy, rfl⟩ := writeInByte_next h
      exact .inr (.inl ⟨a, b, hbusy, rfl⟩)
    | writeReg i v => exact .inr (.inr (.inl ⟨i, v, (Host.Outcome.next.inj h).symm⟩))
    | coreTurn =>
      simp only [hostMove, coreTurn] at h
      split at h
      · cases h
        exact .inl (coreStep_move ‹_›)
      · cases h
        exact .inr (.inr (.inr rfl))
      · cases h

theorem inv_writeHostReg {s : State} (h : Inv s) (i v : Nat) : Inv (writeHostReg i v s) := by
  obtain hw | hw | ⟨n, hbusy, hn, hw⟩ | hw := writeHostReg_cases i v s <;> rw [hw]
  · exact (fresh_hostReset s).inv h.params_ok h.inMem_wf (within_zero _) List.length_replicate
  · exact (fresh_startDecode s).inv h.params_ok h.inMem_wf h.inLen_within h.lens_length
  · exact { h with
      inLen_within := hn
      cursor_le := fun hb => absurd (hbusy ▸ hb : false = true) Bool.false_ne_true
      byState := { h.byState with } }
  · exact h

/-- Settles O56: the moves of the core are `inv_coreMove`; of the host's, RESET and START leave a fresh state, and a
write of IN or IN_LEN is no move while BUSY. -/
theorem everyStepKeepsTheStateInvariant : Obligations.EveryStepKeepsTheStateInvariant := by
  intro s t hinv h
  obtain ⟨ms, hm | ⟨a, b, -, rfl⟩ | ⟨i, v, rfl⟩ | rfl⟩ := step_cases h
  · exact inv_coreMove (hinv.withHost ms) hm
  · exact { hinv with
      inMem_wf := writeByteAt_wf hinv.inMem_wf a b
      byState := { hinv.byState with } }
  · exact inv_writeHostReg (hinv.withHost ms) i v
  · exact hinv.withHost ms

end Sys2Proof.Machine

/-! # The invariant of the block list

`TraceInv` says something of each record at its place, of neighbours, and of the last record. A step appends a record or
changes the last one; each of the two ways is treated once. -/

namespace Sys2Proof.Machine

/-! ## One record -/

/-- What `TraceInv` says of the record at place `i`. -/
structure RecordInv (s : State) (i : Nat) (r : BlockRecord) : Prop where
  index : r.index = i
  itemsNumbered : ∀ (j : Nat) (it : Item), r.items[j]? = some it → it.blockIndex = r.index ∧ it.itemIndex = j
  open_iff : r.closed = none ↔ s.blkOpen = true ∧ i + 1 = s.blkCount
  partial_last : r.isPartial = true → s.st = .error ∧ i + 1 = s.blkCount
  closed_ok : ∀ c, r.closed = some c → closedOk r c
  header_iff : r.kind = .zlibHeader ↔ i = 0
  header_span : i = 0 → r.startBit = 0 ∧ r.closed.map BlockClose.endBit = some 16
  trailer_iff : r.kind = .zlibTrailer ↔ s.trlValid = true ∧ i + 1 = s.blkCount
  final_iff : r.final = none ↔ isPseudo r.kind

theorem TraceInv.record {s : State} {i : Nat} {r : BlockRecord} (h : TraceInv s) (hr : s.trace[i]? = some r) :
    RecordInv s i r where
  index := h.numbered i r hr
  itemsNumbered := h.itemsNumbered r (List.mem_of_getElem? hr)
  open_iff := h.open_last i r hr
  partial_last := h.partial_last i r hr
  closed_ok := h.closed_ok r (List.mem_of_getElem? hr)
  header_iff := h.header_first i r hr
  header_span := fun hi => h.header_span r (hi ▸ hr)
  trailer_iff := h.trailer_last i r hr
  final_iff := h.final_iff r (List.mem_of_getElem? hr)

theorem traceInv_of_records {s : State} (hrec : ∀ i r, s.trace[i]? = some r → RecordInv s i r)
    (hchain : ∀ i r r' c, s.trace[i]? = some r → s.trace[i + 1]? = some r' → r.closed = some c →
      r'.startBit = nextStart r'.kind c.endBit)
    (hbetween : s.st = .bhdr ∨ s.st = .ztrl →
      ∀ r, s.trace.getLast? = some r → r.closed.map BlockClose.endBit = some (bitOffset s))
    (hcurrent : s.blkOpen = true → ∀ r, s.trace.getLast? = some r → openOk s r) : TraceInv s where
  numbered i r hr := (hrec i r hr).index
  itemsNumbered r hr :=
    have ⟨i, hi⟩ := List.getElem?_of_mem hr
    (hrec i r hi).itemsNumbered
  open_last i r hr := (hrec i r hr).open_iff
  partial_last i r hr := (hrec i r hr).partial_last
  closed_ok r hr :=
    have ⟨i, hi⟩ := List.getElem?_of_mem hr
    (hrec i r hi).closed_ok
  header_first i r hr := (hrec i r hr).header_iff
  header_span r hr := (hrec 0 r hr).header_span rfl
  trailer_last i r hr := (hrec i r hr).trailer_iff
  final_iff r hr :=
    have ⟨i, hi⟩ := List.getElem?_of_mem hr
    (hrec i r hi).final_iff
  chain := hchain
  between := hbetween
  current := hcurrent

/-- A record that has another behind it does not depend on the flags of the state. -/
theorem RecordInv.before {s t : State} {i : Nat} {r : BlockRecord} (h : RecordInv s i r)
    (hs : i + 1 = s.blkCount → s.blkOpen = false ∧ s.st ≠ .error ∧ s.trlValid = false)
    (ht : i + 1 ≠ t.blkCount) : RecordInv t i r :=
  { h with
    open_iff := by
      rw [h.open_iff]
      exact ⟨fun ⟨hopen, hi⟩ => absurd hopen (by simp [hs hi]), fun ⟨_, hi⟩ => absurd hi ht⟩
    partial_last := fun hp =>
      have ⟨herr, hi⟩ := h.partial_last hp
      absurd herr (hs hi).2.1
    trailer_iff := by
      rw [h.trailer_iff]
      exact ⟨fun ⟨htrl, hi⟩ => absurd htrl (by simp [hs hi]), fun ⟨_, hi⟩ => absurd hi ht⟩ }

/-! ## The list -/

theorem getLast?_trace {s : State} (hlen : s.trace.length = s.blkCount) :
    s.trace.getLast? = s.trace[s.blkCount - 1]? := by
  rw [List.getLast?_eq_getElem?, hlen]

/-- The last record's place is the last one. -/
theorem place_of_last {s : State} {r : BlockRecord} (hlen : s.trace.length = s.blkCount)
    (hr : s.trace[s.blkCount - 1]? = some r) : s.blkCount - 1 + 1 = s.blkCount := by
  have := (List.getElem?_eq_some_iff.mp hr).1
  omega

/-- A change of the last record that leaves its start and its kind. -/
theorem TraceInv.changeLast {s t : State} {f : BlockRecord → BlockRecord} (h : TraceInv s)
    (hlen : s.trace.length = s.blkCount) (htrace : t.trace = s.trace.modify (s.blkCount - 1) f)
    (hblk : t.blkCount = s.blkCount) (hkind : ∀ r, (f r).startBit = r.startBit ∧ (f r).kind = r.kind)
    (hlast : ∀ r, s.trace[s.blkCount - 1]? = some r → RecordInv t (s.blkCount - 1) (f r))
    (hbetween : t.st = .bhdr ∨ t.st = .ztrl → ∀ r, s.trace[s.blkCount - 1]? = some r →
      (f r).closed.map BlockClose.endBit = some (bitOffset t))
    (hcurrent : t.blkOpen = true → ∀ r, s.trace[s.blkCount - 1]? = some r → openOk t (f r)) : TraceInv t := by
  have hlen' : t.trace.length = t.blkCount := by rw [htrace, List.length_modify, hlen, hblk]
  have hget (i : Nat) (q : BlockRecord) (hq : t.trace[i]? = some q) :
      ∃ r, s.trace[i]? = some r ∧ q.startBit = r.startBit ∧ q.kind = r.kind ∧
        (i + 1 = s.blkCount ∧ q = f r ∨ i + 1 < s.blkCount ∧ q = r) := by
    have hi : i < s.blkCount := by rw [← hblk, ← hlen']; exact (List.getElem?_eq_some_iff.mp hq).1
    rw [htrace] at hq
    by_cases hlast : s.blkCount - 1 = i
    · rw [hlast, List.getElem?_modify_eq] at hq
      obtain ⟨r, hr, rfl⟩ := Option.map_eq_some_iff.mp hq
      exact ⟨r, hr, (hkind r).1, (hkind r).2, .inl ⟨by omega, rfl⟩⟩
    · rw [List.getElem?_modify_ne _ _ hlast] at hq
      exact ⟨q, hq, rfl, rfl, .inr ⟨by omega, rfl⟩⟩
  have hgetLast (q : BlockRecord) (hq : t.trace.getLast? = some q) :
      ∃ r, s.trace[s.blkCount - 1]? = some r ∧ q = f r := by
    rw [getLast?_trace hlen', hblk, htrace, List.getElem?_modify_eq] at hq
    obtain ⟨r, hr, rfl⟩ := Option.map_eq_some_iff.mp hq
    exact ⟨r, hr, rfl⟩
  refine traceInv_of_records (fun i q hq => ?_) (fun i q q' c hq hq' hc => ?_)
    (fun hst q hq => ?_) (fun hopen q hq => ?_)
  · obtain ⟨r, hr, -, -, ⟨hi, rfl⟩ | ⟨hi, rfl⟩⟩ := hget i q hq
    · obtain rfl : i = s.blkCount - 1 := by omega
      exact hlast r hr
    · exact (h.record hr).before (fun hi' => by omega) (by omega)
  · obtain ⟨r, hr, -, -, hi⟩ := hget i q hq
    obtain ⟨r', hr', hstart, hkind', -⟩ := hget (i + 1) q' hq'
    have := (List.getElem?_eq_some_iff.mp hr').1
    obtain ⟨hi, -⟩ | ⟨-, rfl⟩ := hi
    · omega
    · rw [hstart, hkind']
      exact h.chain i q r' c hr hr' hc
  · obtain ⟨r, hr, rfl⟩ := hgetLast q hq
    exact hbetween hst r hr
  · obtain ⟨r, hr, rfl⟩ := hgetLast q hq
    exact hcurrent hopen r hr

/-- A record more, where the last one is finished. -/
theorem TraceInv.append {s t : State} {q : BlockRecord} (h : TraceInv s) (hlen : s.trace.length = s.blkCount)
    (htrace : t.trace = s.trace ++ [q]) (hblk : t.blkCount = s.blkCount + 1) (hopen : s.blkOpen = false)
    (hst : s.st ≠ .error) (htrl : s.trlValid = false) (hq : RecordInv t s.blkCount q)
    (hchain : ∀ r c, s.trace.getLast? = some r → r.closed = some c → q.startBit = nextStart q.kind c.endBit)
    (hbetween : t.st = .bhdr ∨ t.st = .ztrl → q.closed.map BlockClose.endBit = some (bitOffset t))
    (hcurrent : t.blkOpen = true → openOk t q) : TraceInv t := by
  have hget (i : Nat) (p : BlockRecord) (hp : t.trace[i]? = some p) :
      i < s.blkCount ∧ s.trace[i]? = some p ∨ i = s.blkCount ∧ p = q := by
    rw [htrace] at hp
    by_cases hi : i < s.trace.length
    · rw [List.getElem?_append_left hi] at hp
      exact .inl ⟨hlen ▸ hi, hp⟩
    · obtain ⟨hi', hp⟩ := List.getElem?_eq_some_iff.mp hp
      simp only [List.length_append, List.length_singleton] at hi'
      obtain rfl : i = s.trace.length := by omega
      exact .inr ⟨hlen, by simpa using hp.symm⟩
  have hgetLast (p : BlockRecord) (hp : t.trace.getLast? = some p) : p = q := by
    rw [htrace, List.getLast?_concat] at hp
    exact (Option.some.inj hp).symm
  refine traceInv_of_records (fun i p hp => ?_) (fun i p p' c hp hp' hc => ?_)
    (fun hst' p hp => ?_) (fun hopen' p hp => ?_)
  · obtain ⟨hi, hp⟩ | ⟨rfl, rfl⟩ := hget i p hp
    · exact (h.record hp).before (fun _ => ⟨hopen, hst, htrl⟩) (by omega)
    · exact hq
  · obtain ⟨hi', hp'⟩ | ⟨hi', rfl⟩ := hget (i + 1) p' hp'
    · obtain ⟨-, hp⟩ | ⟨hi, -⟩ := hget i p hp
      · exact h.chain i p p' c hp hp' hc
      · omega
    · obtain ⟨-, hp⟩ | ⟨hi, -⟩ := hget i p hp
      · refine hchain p c ?_ hc
        rw [getLast?_trace hlen, ← hi']
        exact hp
      · omega
  · rw [hgetLast p hp]
    exact hbetween hst'
  · rw [hgetLast p hp]
    exact hcurrent hopen'

theorem Fresh.traceInv {s : State} (h : Fresh s) : TraceInv s := by
  refine traceInv_of_records ?_ ?_ ?_ ?_ <;> simp [h.trace]

/-! ## Items -/

/-- One more item behind a tiling carries it on. -/
theorem itemsTile_concat {a b e : Nat} {l : List Item} {it : Item} (h : itemsTile a l b) (hstart : it.bitStart = b)
    (hlt : b < it.bitEnd) (hend : it.bitEnd = e) : itemsTile a (l ++ [it]) e := by
  induction l generalizing a with
  | nil =>
    subst h
    exact ⟨hstart, hlt, hend⟩
  | cons j l ih =>
    obtain ⟨hj, hlt', htile⟩ := h
    exact ⟨hj, hlt', ih htile⟩

/-- Items numbered in order stay so with the one that `addItem` adds. -/
theorem itemsNumbered_addItem {r : BlockRecord} {k : ItemKind} {a e : Nat}
    (h : ∀ (j : Nat) (it : Item), r.items[j]? = some it → it.blockIndex = r.index ∧ it.itemIndex = j)
    (j : Nat) (it : Item) (hit : (addItem k a e r).items[j]? = some it) :
    it.blockIndex = r.index ∧ it.itemIndex = j := by
  simp only [addItem] at hit
  by_cases hj : j < r.items.length
  · rw [List.getElem?_append_left hj] at hit
    exact h j it hit
  · obtain ⟨hj', hit⟩ := List.getElem?_eq_some_iff.mp hit
    simp only [List.length_append, List.length_singleton] at hj'
    obtain rfl : j = r.items.length := by omega
    simp only [List.getElem_concat_length] at hit
    subst hit
    exact ⟨rfl, rfl⟩

/-- Behind the header bits of its kind the items of the open record reach the cursor, but for a stored block whose
lengths are still to be read (45_engine.md R280). -/
theorem tile_of_openOk {s : State} {r : BlockRecord} (hinv : Inv s) (h : openOk s r) (hst : s.st ≠ .storedHdr) :
    itemsTile (headerEnd r) r.items (bitOffset s) := by
  obtain ⟨-, hkind, -, -, htile⟩ := h
  by_cases hdyn : s.st = .dynHdr
  · rw [if_pos (.inr hdyn)] at htile
    obtain ⟨hitems, hcur⟩ := htile
    have hend : headerEnd r = r.startBit + 3 := by
      simp [headerEnd, hkind, (hinv.clause hdyn).2, blockKindOf]
    rw [hitems, hend, hcur]
    rfl
  · rwa [if_neg (by simp [hst, hdyn])] at htile

/-! ## The last record changed -/

/-- The open record in a state that meets the invariant. -/
structure OpenRecord (s : State) (r : BlockRecord) : Prop where
  record : RecordInv s (s.blkCount - 1) r
  place : s.blkCount - 1 + 1 = s.blkCount
  closed : r.closed = none
  complete : r.isPartial = false
  current : openOk s r

theorem TraceInv.openRecord {s : State} {r : BlockRecord} (h : TraceInv s) (hlen : s.trace.length = s.blkCount)
    (herr : s.st ≠ .error) (hopen : s.blkOpen = true) (hr : s.trace[s.blkCount - 1]? = some r) : OpenRecord s r where
  record := h.record hr
  place := place_of_last hlen hr
  closed := (h.record hr).open_iff.mpr ⟨hopen, place_of_last hlen hr⟩
  complete := by
    rw [← Bool.not_eq_true]
    exact fun hp => herr ((h.record hr).partial_last hp).1
  current := h.current hopen r (by rw [getLast?_trace hlen, hr])

theorem Inv.ne_error_of_open {s : State} (h : Inv s) (hopen : s.blkOpen = true) : s.st ≠ .error := by
  intro herr
  rw [h.open_iff, herr] at hopen
  exact absurd hopen (by decide)

/-- A record that stays open keeps its place whatever is added to it. -/
theorem OpenRecord.stillOpen {s t : State} {r q : BlockRecord} (h : OpenRecord s r) (hindex : q.index = r.index)
    (hkind : q.kind = r.kind) (hfinal : q.final = r.final) (hclosed : q.closed = r.closed)
    (hpartial : q.isPartial = r.isPartial) (hstart : q.startBit = r.startBit)
    (hitems : ∀ (j : Nat) (it : Item), q.items[j]? = some it → it.blockIndex = q.index ∧ it.itemIndex = j)
    (hopen : t.blkOpen = s.blkOpen) (hblk : t.blkCount = s.blkCount) (htrl : t.trlValid = s.trlValid) :
    RecordInv t (s.blkCount - 1) q where
  index := hindex.trans h.record.index
  itemsNumbered := hitems
  open_iff := by rw [hclosed, hopen, hblk]; exact h.record.open_iff
  partial_last hp := by simp [hpartial, h.complete] at hp
  closed_ok c hc := by simp [hclosed, h.closed] at hc
  header_iff := by rw [hkind]; exact h.record.header_iff
  header_span hi := by rw [hstart, hclosed]; exact h.record.header_span hi
  trailer_iff := by rw [hkind, htrl, hblk]; exact h.record.trailer_iff
  final_iff := by rw [hkind, hfinal]; exact h.record.final_iff

/-- A record closed at the cursor: its bits are as its kind asks. -/
theorem OpenRecord.closedAt {s t : State} {r q : BlockRecord} {c : BlockClose} (h : OpenRecord s r)
    (hindex : q.index = r.index) (hkind : q.kind = r.kind) (hfinal : q.final = r.final) (hclosed : q.closed = some c)
    (hpartial : q.isPartial = true → t.st = .error) (hitems : q.items = r.items) (hok : closedOk q c)
    (hopen : t.blkOpen = false) (hblk : t.blkCount = s.blkCount) (htrl : t.trlValid = s.trlValid) :
    RecordInv t (s.blkCount - 1) q where
  index := hindex.trans h.record.index
  itemsNumbered := by rw [hitems, hindex]; exact h.record.itemsNumbered
  open_iff := by simp [hclosed, hopen]
  partial_last hp := ⟨hpartial hp, hblk ▸ h.place⟩
  closed_ok c' hc := by
    rw [hclosed, Option.some.injEq] at hc
    exact hc ▸ hok
  header_iff := by rw [hkind]; exact h.record.header_iff
  header_span hi := by
    have := (h.record.header_span hi).2
    simp [h.closed] at this
  trailer_iff := by rw [hkind, htrl, hblk]; exact h.record.trailer_iff
  final_iff := by rw [hkind, hfinal]; exact h.record.final_iff

/-- A state whose cursor is behind at least one more bit. -/
theorem lt_of_advance {n : Nat} {s t : State} (hn : 1 ≤ n) (hbyte : t.curByte = (advance n s).curByte)
    (hbit : t.curBit = (advance n s).curBit) : bitOffset s < bitOffset t := by
  rw [bitOffset_congr hbyte hbit, bitOffset_advance]
  omega

/-- An item from the cursor to the next cursor in the open record (45_engine.md R266). -/
theorem TraceInv.addItem {s t : State} {k : ItemKind} (hinv : Inv s) (h : TraceInv s) (hopen : s.blkOpen = true)
    (hst : s.st ≠ .storedHdr) (hlt : bitOffset s < bitOffset t)
    (htrace : t.trace = s.trace.modify (s.blkCount - 1) (addItem k (bitOffset s) (bitOffset t)))
    (hst' : t.st = .storedData ∨ t.st = .dynLens ∨ t.st = .dynTables ∨ t.st = .symbol ∨ t.st = .blockEnd)
    (hopen' : t.blkOpen = s.blkOpen := by simp) (hblk : t.blkCount = s.blkCount := by simp)
    (htrl : t.trlValid = s.trlValid := by simp) (hbfinal : t.bfinal = s.bfinal := by simp)
    (hbtype : t.btype = s.btype := by simp) (hstart : t.blkStart = s.blkStart := by simp)
    (hout : t.blkOutStart = s.blkOutStart := by simp) : TraceInv t := by
  refine h.changeLast hinv.trace_length htrace hblk (fun r => ⟨rfl, rfl⟩) (fun r hr => ?_) (fun hbt => ?_)
    (fun _ r hr => ?_)
  · have hr := h.openRecord hinv.trace_length (hinv.ne_error_of_open hopen) hopen hr
    exact hr.stillOpen rfl rfl rfl rfl rfl rfl (itemsNumbered_addItem hr.record.itemsNumbered) hopen' hblk htrl
  · obtain hc | hc | hc | hc | hc := hst' <;> simp [hc] at hbt
  · have hcur := (h.openRecord hinv.trace_length (hinv.ne_error_of_open hopen) hopen hr).current
    have ⟨hf, hk, hs, ho, _⟩ := hcur
    refine ⟨hf.trans (by rw [hbfinal]), hk.trans (by rw [hbtype]), hs.trans hstart.symm, ho.trans hout.symm, ?_⟩
    rw [if_neg (by obtain hc | hc | hc | hc | hc := hst' <;> simp [hc])]
    exact itemsTile_concat (tile_of_openOk hinv hcur hst) rfl hlt rfl

/-- The error entry closes an open record as partial and leaves a finished list alone (60_exceptions.md R300, R301). -/
theorem TraceInv.errorEntry {s u : State} {e : ErrorCode} (h : TraceInv s) (hlen : s.trace.length = s.blkCount)
    (herr : s.st ≠ .error) (hle : bitOffset s ≤ bitOffset u) (htrace : u.trace = s.trace)
    (hblk : u.blkCount = s.blkCount) (hopen : u.blkOpen = s.blkOpen) (htrl : u.trlValid = s.trlValid) :
    TraceInv (raise e u) := by
  have htrace' := raise_trace e u
  rw [hopen, hblk, htrace] at htrace'
  cases hs : s.blkOpen with
  | false =>
    rw [hs, if_neg Bool.false_ne_true, ← List.modify_id (s.blkCount - 1) s.trace] at htrace'
    refine h.changeLast hlen htrace' (by simp [hblk]) (fun _ => ⟨rfl, rfl⟩) (fun r hr => ?_)
      (fun hbt => by simp at hbt) (fun ho => by simp at ho)
    exact { h.record hr with
      open_iff := by simp [(h.record hr).open_iff, hs]
      partial_last := fun hp => ⟨raise_st e u, by rw [raise_blkCount, hblk]; exact ((h.record hr).partial_last hp).2⟩
      trailer_iff := by rw [raise_trlValid, htrl, raise_blkCount, hblk]; exact (h.record hr).trailer_iff }
  | true =>
    rw [hs, if_pos rfl] at htrace'
    refine h.changeLast hlen htrace' (by simp [hblk]) (fun _ => ⟨rfl, rfl⟩) (fun r hr => ?_)
      (fun hbt => by simp at hbt) (fun ho => by simp at ho)
    have hr := h.openRecord hlen herr hs hr
    refine hr.closedAt rfl rfl rfl rfl (fun _ => raise_st e u) rfl ⟨rfl, rfl, rfl, ?_⟩ (by simp) (by simp [hblk])
      (by simp [htrl])
    obtain ⟨-, -, -, -, htile⟩ := hr.current
    split at htile
    · exact .inl htile.1
    · exact .inr ⟨_, hle, htile⟩

/-! ## A record more -/

/-- A pseudo-block's record: one item over all its bits. -/
theorem closedOk_pseudoRecord {i : Nat} {kind : BlockKind} {item : ItemKind} {a b n : Nat} {c : BlockClose}
    (hkind : isPseudo kind) (hab : a < b) (hc : (pseudoRecord i kind item a b n).closed = some c) :
    closedOk (pseudoRecord i kind item a b n) c := by
  cases hc
  refine ⟨rfl, rfl, rfl, ?_⟩
  obtain rfl | rfl := hkind
  · exact ⟨rfl, hab, rfl⟩
  · exact ⟨rfl, hab, rfl⟩

theorem itemsNumbered_pseudoRecord {i : Nat} {kind : BlockKind} {item : ItemKind} {a b n : Nat} (j : Nat) (it : Item)
    (h : (pseudoRecord i kind item a b n).items[j]? = some it) : it.blockIndex = i ∧ it.itemIndex = j := by
  cases j with
  | zero =>
    cases h
    exact ⟨rfl, rfl⟩
  | succ j => cases h

/-- A block's record as OpenBlock appends it, behind the header's record. -/
theorem recordInv_openedRecord {s t : State} {kind : BlockKind} {f : Bool} (hkind : ¬ isPseudo kind)
    (hpos : 0 < s.blkCount) (hopen : t.blkOpen = true) (hblk : t.blkCount = s.blkCount + 1)
    (htrl : t.trlValid = false) : RecordInv t s.blkCount (openedRecord s kind f) where
  index := rfl
  itemsNumbered j it h := nomatch h
  open_iff := by simp [openedRecord, hopen, hblk]
  partial_last h := nomatch h
  closed_ok c h := nomatch h
  header_iff := iff_of_false (fun h => hkind (.inl h)) (by omega)
  header_span h := absurd h (by omega)
  trailer_iff := iff_of_false (fun h => hkind (.inr h)) (by simp [htrl])
  final_iff := iff_of_false (fun h => nomatch h) hkind

/-- The start of a block behind the last record (45_engine.md R282). -/
theorem start_of_between {s : State} {k : BlockKind} {r : BlockRecord} {c : BlockClose} (h : TraceInv s)
    (hst : s.st = .bhdr ∨ s.st = .ztrl) (hr : s.trace.getLast? = some r) (hc : r.closed = some c) :
    nextStart k c.endBit = nextStart k (bitOffset s) := by
  have := h.between hst r hr
  rw [hc, Option.map_some, Option.some.injEq] at this
  rw [this]

/-- A block header opens a record at the cursor (43_blocks.md R186). -/
theorem TraceInv.beginBlock {s t : State} {f : Bool} {btype : BitVec 2} (hinv : Inv s) (h : TraceInv s)
    (hst : s.st = .bhdr) (htrace : t.trace = (blockBegun f btype s).trace) (hblk : t.blkCount = s.blkCount + 1)
    (hopen : t.blkOpen = true) (hbfinal : t.bfinal = f) (hbtype : t.btype = btype)
    (hstart : t.blkStart = bitOffset s) (hout : t.blkOutStart = s.outLen) (htrl : t.trlValid = s.trlValid)
    (hcur : bitOffset t = bitOffset s + 3)
    (hst' : t.st = .storedHdr ∨ t.st = .dynHdr ∨ t.st = .symbol ∧ btype = 1) : TraceInv t := by
  have hpos : 0 < s.blkCount := hinv.clause hst
  have htrl' : s.trlValid = false := hinv.trlValid_of_busy (by simp [busy, hst])
  have hkind : ¬ isPseudo (blockKindOf btype) ∧ blockKindOf btype ≠ .zlibTrailer := by
    unfold isPseudo blockKindOf
    split
    · decide
    · split <;> decide
  refine h.append hinv.trace_length htrace hblk (by rw [hinv.open_iff, hst]; rfl) (by simp [hst]) htrl'
    (recordInv_openedRecord hkind.1 hpos hopen hblk (htrl.trans htrl')) (fun r c hr hc => ?_)
    (fun hbt => ?_) (fun _ => ?_)
  · rw [start_of_between h (.inl hst) hr hc]
    exact (if_neg hkind.2).symm
  · obtain hc | hc | ⟨hc, -⟩ := hst' <;> simp [hc] at hbt
  · refine ⟨hbfinal ▸ rfl, hbtype ▸ rfl, hstart.symm, hout.symm, ?_⟩
    obtain hc | hc | ⟨hc, rfl⟩ := hst'
    · rw [if_pos (.inl hc)]
      exact ⟨rfl, hcur⟩
    · rw [if_pos (.inr hc)]
      exact ⟨rfl, hcur⟩
    · rw [if_neg (by simp [hc])]
      exact hcur.symm

/-! ## The moves of the core -/

/-- LEN and NLEN stand in the open record, whose items begin behind them (43_blocks.md R192, 45_engine.md R280). -/
theorem TraceInv.readLengths {s : State} {len nlen : BitVec 16} {v : BitVec 16} {c : CoreState} (hinv : Inv s)
    (h : TraceInv s) (hst : s.st = .storedHdr) (hc : c = .blockEnd ∨ c = .storedData) :
    TraceInv { lengthsRead len nlen s with srem := v, st := c } := by
  have hopen : s.blkOpen = true := by rw [hinv.open_iff, hst]; rfl
  refine h.changeLast (f := fun r => { r with storedLen := some len, storedNLen := some nlen }) hinv.trace_length
    (by simp [modifyRecord]) (by simp) (fun _ => ⟨rfl, rfl⟩) (fun r hr => ?_) (fun hbt => ?_) (fun _ r hr => ?_)
  · have hr := h.openRecord hinv.trace_length (hinv.ne_error_of_open hopen) hopen hr
    exact hr.stillOpen rfl rfl rfl rfl rfl rfl hr.record.itemsNumbered (by simp) (by simp) (by simp)
  · obtain rfl | rfl := hc <;> simp at hbt
  · obtain ⟨hf, hk, hs, ho, htile⟩ := (h.openRecord hinv.trace_length (hinv.ne_error_of_open hopen) hopen hr).current
    rw [if_pos (.inl hst)] at htile
    obtain ⟨hitems, hcur⟩ := htile
    refine ⟨hf.trans (by simp), hk.trans (by simp), hs.trans (by simp), ho.trans (by simp), ?_⟩
    have hcur' : bitOffset (lengthsRead len nlen s) = bitOffset s + padLen s + 32 := bitOffset_skipBytes 4 s
    have hend : headerEnd r = 8 * ((r.startBit + 3 + 7) / 8) + 32 := by
      simp [headerEnd, hk, (hinv.clause hst).2, blockKindOf]
    have htile : headerEnd r = bitOffset (lengthsRead len nlen s) := by
      rw [hend, hcur', padLen, hcur]
      omega
    rw [if_neg (by obtain rfl | rfl := hc <;> simp)]
    show itemsTile (headerEnd r) r.items (bitOffset (lengthsRead len nlen s))
    rw [hitems]
    exact htile

/-- The dynamic header's item behind the three header bits (43_blocks.md R201). -/
theorem TraceInv.readDynHeader {s : State} (h d : BitVec 5) (c : BitVec 4) (cl : List (BitVec 3)) (t : HuffTable)
    (n : BitVec 9) (hinv : Inv s) (ht : TraceInv s) (hst : s.st = .dynHdr) :
    TraceInv { dynHeaderRead h d c cl s with clTab := t, lcnt := n, st := .dynLens } :=
  ht.addItem hinv (by rw [hinv.open_iff, hst]; rfl) (by simp [hst])
    (lt_of_advance (n := 14 + 3 * cl.length) (by omega) rfl rfl) rfl
    (.inr (.inl rfl))

/-- DYN_TABLES leaves the block list alone. -/
theorem TraceInv.buildTables {s : State} {lt dt : HuffTable} (hinv : Inv s) (h : TraceInv s) (hst : s.st = .dynTables) :
    TraceInv { s with litTab := lt, distTab := dt, tsel := .dyn, st := .symbol } := by
  have hopen : s.blkOpen = true := by rw [hinv.open_iff, hst]; rfl
  refine h.changeLast (f := id) hinv.trace_length (List.modify_id _ _).symm rfl (fun _ => ⟨rfl, rfl⟩) (fun r hr => ?_)
    (fun hbt => by simp at hbt) (fun _ r hr => ?_)
  · have hr := h.openRecord hinv.trace_length (hinv.ne_error_of_open hopen) hopen hr
    exact hr.stillOpen rfl rfl rfl rfl rfl rfl hr.record.itemsNumbered rfl rfl rfl
  · obtain ⟨hf, hk, hs, ho, htile⟩ := (h.openRecord hinv.trace_length (hinv.ne_error_of_open hopen) hopen hr).current
    rw [if_neg (by simp [hst])] at htile
    exact ⟨hf, hk, hs, ho, htile⟩

/-- BLOCK_END closes the record whose items reach the cursor (45_engine.md R268). -/
theorem TraceInv.endBlock {s : State} (hinv : Inv s) (h : TraceInv s) (hst : s.st = .blockEnd) :
    TraceInv (blockEnd s) := by
  have hopen : s.blkOpen = true := by rw [hinv.open_iff, hst]; rfl
  refine h.changeLast hinv.trace_length rfl rfl (fun _ => ⟨rfl, rfl⟩) (fun r hr => ?_) (fun _ r hr => rfl)
    (fun ho => nomatch ho)
  have hr := h.openRecord hinv.trace_length (hinv.ne_error_of_open hopen) hopen hr
  have htile := tile_of_openOk hinv hr.current (by simp [hst])
  refine hr.closedAt rfl rfl rfl rfl (fun hp => by simp [hr.complete] at hp) rfl ⟨rfl, rfl, rfl, ?_⟩ rfl rfl rfl
  rw [if_neg (by simp [hr.complete])]
  exact htile

/-- ZTRL appends the trailer's record on the next byte boundary (42_zlib_envelope.md R178). -/
theorem TraceInv.readTrailer {s : State} {a : BitVec 32} (hinv : Inv s) (h : TraceInv s) (hst : s.st = .ztrl) :
    TraceInv (ztrlNext a s) := by
  have hpos : 0 < s.blkCount := (hinv.clause hst).1
  have hopen : s.blkOpen = false := by rw [hinv.open_iff, hst]; rfl
  refine h.append hinv.trace_length rfl rfl hopen (by simp [hst]) (hinv.trlValid_of_busy (by simp [busy, hst])) ?_
    (fun r c hr hc => ?_) (fun hbt => by simp at hbt) (fun ho => by simp [hopen] at ho)
  · exact
      { index := rfl
        itemsNumbered := itemsNumbered_pseudoRecord
        open_iff := by simp [pseudoRecord, hopen]
        partial_last := fun hp => nomatch hp
        closed_ok := fun c hc => closedOk_pseudoRecord (.inr rfl) (by omega) hc
        header_iff := iff_of_false (fun hk => nomatch hk) (by omega)
        header_span := fun hi => by omega
        trailer_iff := iff_of_true rfl ⟨rfl, rfl⟩
        final_iff := iff_of_true rfl (.inr rfl) }
  · rw [start_of_between h (.inr hst) hr hc]
    show bitOffset s + padLen s = 8 * ((bitOffset s + 7) / 8)
    unfold padLen
    omega

theorem traceInv_coreMove {s t : State} (hinv : Inv s) (h : TraceInv s) (hm : CoreMove s t) : TraceInv t := by
  have hbusy := hm.busy
  have htrl := hinv.trlValid_of_busy hbusy
  have hopen := hinv.open_iff
  cases hm with
  | fail _ _ hu =>
    obtain ⟨n, -, hcur⟩ := hu.cursor
    obtain ⟨-, -, herr⟩ := st_of_busy hbusy
    exact h.errorEntry hinv.trace_length herr (by omega) hu.trace hu.blkCount hu.blkOpen hu.trlValid
  | zhdr cmf flg hst =>
    obtain ⟨hcur, hblk, -⟩ := hinv.clause hst
    have hnil : s.trace = [] := List.length_eq_zero_iff.mp (hinv.trace_length.trans hblk)
    refine h.append hinv.trace_length rfl (by simp [hblk]) (by rw [hopen, hst]; rfl) (by simp [hst]) htrl ?_
      (fun r c hr => by simp [hnil] at hr) (fun _ => ?_) (fun ho => by simp [hopen, hst, blockIsOpen] at ho)
    · rw [hblk]
      exact
        { index := rfl
          itemsNumbered := itemsNumbered_pseudoRecord
          open_iff := by simp [pseudoRecord, hopen, hst, blockIsOpen]
          partial_last := fun hp => nomatch hp
          closed_ok := fun c hc => closedOk_pseudoRecord (.inl rfl) (by omega) hc
          header_iff := by simp [pseudoRecord]
          header_span := fun _ => ⟨hcur, by simp [pseudoRecord, hcur]⟩
          trailer_iff := by simp [pseudoRecord, htrl]
          final_iff := by simp [pseudoRecord, isPseudo] }
    · have hnext : bitOffset (zhdrNext cmf flg s) = bitOffset s + padLen s + 16 := bitOffset_skipBytes 2 s
      simp [pseudoRecord, hnext, padLen, hcur]
  | stored f hst =>
    exact h.beginBlock (f := f) (btype := 0) hinv hst rfl rfl rfl rfl rfl rfl rfl rfl (bitOffset_advance 3 s) (.inl rfl)
  | fixed f hst =>
    exact h.beginBlock (f := f) (btype := 1) hinv hst rfl rfl rfl rfl rfl rfl rfl rfl (bitOffset_advance 3 s)
      (.inr (.inr ⟨rfl, rfl⟩))
  | dynamic f hst =>
    exact h.beginBlock (f := f) (btype := 2) hinv hst rfl rfl rfl rfl rfl rfl rfl rfl (bitOffset_advance 3 s)
      (.inr (.inl rfl))
  | lengths len nlen hst =>
    by_cases hlen : len = 0
    · rw [if_pos hlen]
      exact h.readLengths hinv hst (.inl rfl)
    · rw [if_neg hlen]
      exact h.readLengths hinv hst (.inr rfl)
  | badLengths len nlen hst =>
    exact (h.readLengths (v := len) hinv hst (.inr rfl)).errorEntry ((hinv.base.lengthsRead len nlen).trace_length)
      (by simp) (le_of_eq (bitOffset_congr rfl rfl)) rfl rfl rfl rfl
  | storedByte b hst =>
    have hcur : bitOffset (literalAdded b (bitOffset s) s.outLen (skipBytes 1 s)) = bitOffset s + padLen s + 8 :=
      bitOffset_skipBytes 1 s
    refine h.addItem (k := .literal b s.outLen) hinv (by rw [hopen, hst]; rfl) (by simp [hst]) ?_ ?_ ?_
    · exact Nat.lt_of_lt_of_eq (by omega) hcur.symm
    · simp only [modifyRecord, skipBytes_trace, skipBytes_blkCount]
      rfl
    · by_cases hlast : s.srem - 1 = 0
      · exact .inr (.inr (.inr (.inr (if_pos hlast))))
      · exact .inl ((if_neg hlast).trans hst)
  | dynHeader hl hd hc cl tab hst =>
    exact h.readDynHeader hl hd hc cl tab 0 hinv hst
  | badDynHeader hl hd hc cl hst =>
    exact (h.readDynHeader hl hd hc cl [] 0 hinv hst).errorEntry
      ((List.length_modify _ _ _).trans hinv.trace_length) (by simp) (le_of_eq (bitOffset_congr rfl rfl))
      rfl rfl rfl rfl
  | run n sym extra r v hst hn =>
    refine h.addItem (k := .dynamicCodeLengthEntry sym extra r v.toNat s.lcnt.toNat) hinv (by rw [hopen, hst]; rfl)
      (by simp [hst]) ?_ ?_ ?_
    · rw [bitOffset_lensNext]
      exact lt_of_advance hn rfl rfl
    · rw [lensNext_trace, bitOffset_lensNext]
      rfl
    · unfold lengthsWritten lensNext
      split
      · exact .inr (.inr (.inl rfl))
      · exact .inr (.inl hst)
  | tables lt dt hst => exact h.buildTables hinv hst
  | literal n b hst hn =>
    exact h.addItem hinv (by rw [hopen, hst]; rfl) (by simp [hst]) 
      (lt_of_advance hn rfl rfl) rfl (.inr (.inr (.inr (.inl hst))))
  | copy n len dist bs lsym lextra dsym dextra hst hn =>
    exact h.addItem hinv (by rw [hopen, hst]; rfl) (by simp [hst]) 
      (lt_of_advance hn rfl rfl) rfl (.inr (.inr (.inr (.inl hst))))
  | endOfBlock n hst hn =>
    exact h.addItem hinv (by rw [hopen, hst]; rfl) (by simp [hst]) 
      (lt_of_advance hn rfl rfl) rfl (.inr (.inr (.inr (.inr rfl))))
  | blockEnd hst => exact h.endBlock hinv hst
  | ztrl a hst => exact h.readTrailer hinv hst

/-! ## Every step -/

theorem traceInv_writeHostReg {s : State} (h : TraceInv s) (i v : Nat) : TraceInv (writeHostReg i v s) := by
  obtain hw | hw | ⟨n, -, -, hw⟩ | hw := writeHostReg_cases i v s <;> rw [hw]
  · exact (fresh_hostReset s).traceInv
  · exact (fresh_startDecode s).traceInv
  · exact { h with }
  · exact h

/-- Settles O57: the moves of the core are `traceInv_coreMove`; of the host's, RESET and START empty the list, and no
other touches it. -/
theorem everyStepKeepsTheTraceInvariant : Obligations.EveryStepKeepsTheTraceInvariant := by
  intro s t hinv htrace h
  obtain ⟨ms, hm | ⟨a, b, -, rfl⟩ | ⟨i, v, rfl⟩ | rfl⟩ := step_cases h
  · exact traceInv_coreMove (hinv.withHost ms) { htrace with } hm
  · exact { htrace with }
  · exact traceInv_writeHostReg (s := { s with host := ms }) { htrace with } i v
  · exact { htrace with }

end Sys2Proof.Machine

/-! # The frame of every row -/

namespace Sys2Proof.Machine

/-- What a row leaves unchanged: the frame that 10_state.md R22 and R27 give each register. -/
def RowFrame (i : Instr) (s t : State) : Prop :=
  t.inMem = s.inMem ∧ t.inLen = s.inLen ∧ t.params = s.params ∧ t.host = s.host ∧
  t.litTab = s.litTab ∧ t.distTab = s.distTab ∧
  (isBhdr i = false → t.bfinal = s.bfinal ∧ t.btype = s.btype ∧ t.blkStart = s.blkStart ∧
    t.blkOutStart = s.blkOutStart) ∧
  ((∀ f, i ≠ .bhdrFixed f) → t.tsel = s.tsel) ∧
  ((∀ c f, i ≠ .zhdr c f) → t.zcmf = s.zcmf ∧ t.zflg = s.zflg ∧ t.hdrValid = s.hdrValid) ∧
  ((∀ a, i ≠ .ztrl a) → t.adler = s.adler ∧ t.trlValid = s.trlValid) ∧
  ((∀ l n, i ≠ .sthdr l n) → t.slen = s.slen ∧ t.snlen = s.snlen) ∧
  ((∀ l n, i ≠ .sthdr l n) → (∀ b, i ≠ .stbyte b) → t.srem = s.srem) ∧
  ((∀ h d c cl, i ≠ .dynhdr h d c cl) →
    t.hlit = s.hlit ∧ t.hdist = s.hdist ∧ t.hclen = s.hclen ∧ t.cll = s.cll ∧ t.clTab = s.clTab ∧
      (isClEntry i = false → t.lcnt = s.lcnt)) ∧
  (isClEntry i = false → t.lens = s.lens) ∧
  ((∀ c f, i ≠ .zhdr c f) → (∀ a, i ≠ .ztrl a) → isBhdr i = false → t.blkCount = s.blkCount) ∧
  (isBhdr i = false → t.blkOpen = s.blkOpen ∨ t.st = .error) ∧
  (t.st = .error ∨ (t.errCode = s.errCode ∧ t.errPos = s.errPos ∧ t.errBlk = s.errBlk))

/-! ## The rows of the symbol loop -/

/-- The registers no row of the symbol loop writes: `t` may differ from `s` in the cursor, OUT, TRACE and ST, and in
BLK_OPEN and the error registers when it is ERROR. -/
structure Untouched (s t : State) : Prop where
  inMem : t.inMem = s.inMem
  inLen : t.inLen = s.inLen
  params : t.params = s.params
  host : t.host = s.host
  litTab : t.litTab = s.litTab
  distTab : t.distTab = s.distTab
  bfinal : t.bfinal = s.bfinal
  btype : t.btype = s.btype
  blkStart : t.blkStart = s.blkStart
  blkOutStart : t.blkOutStart = s.blkOutStart
  tsel : t.tsel = s.tsel
  zcmf : t.zcmf = s.zcmf
  zflg : t.zflg = s.zflg
  hdrValid : t.hdrValid = s.hdrValid
  adler : t.adler = s.adler
  trlValid : t.trlValid = s.trlValid
  slen : t.slen = s.slen
  snlen : t.snlen = s.snlen
  srem : t.srem = s.srem
  hlit : t.hlit = s.hlit
  hdist : t.hdist = s.hdist
  hclen : t.hclen = s.hclen
  cll : t.cll = s.cll
  clTab : t.clTab = s.clTab
  lcnt : t.lcnt = s.lcnt
  lens : t.lens = s.lens
  blkCount : t.blkCount = s.blkCount
  blkOpen : t.blkOpen = s.blkOpen ∨ t.st = .error
  errors : t.st = .error ∨ (t.errCode = s.errCode ∧ t.errPos = s.errPos ∧ t.errBlk = s.errBlk)

theorem Untouched.rowFrame {s t : State} (h : Untouched s t) (i : Instr) : RowFrame i s t :=
  ⟨h.inMem, h.inLen, h.params, h.host, h.litTab, h.distTab, fun _ => ⟨h.bfinal, h.btype, h.blkStart, h.blkOutStart⟩,
    fun _ => h.tsel, fun _ => ⟨h.zcmf, h.zflg, h.hdrValid⟩, fun _ => ⟨h.adler, h.trlValid⟩, fun _ => ⟨h.slen, h.snlen⟩,
    fun _ _ => h.srem, fun _ => ⟨h.hlit, h.hdist, h.hclen, h.cll, h.clTab, fun _ => h.lcnt⟩, fun _ => h.lens,
    fun _ _ _ => h.blkCount, fun _ => h.blkOpen, h.errors⟩

theorem untouched_raise (e : ErrorCode) (n : Nat) (s : State) : Untouched s (raise e (advance n s)) := by
  constructor <;> simp

theorem untouched_recordItem (k : ItemKind) (a n : Nat) (bs : List Byte) (s : State) :
    Untouched s (recordItem k a (addBytes bs (advance n s))) := by
  constructor <;> simp

theorem untouched_copy {n start : Nat} {s t : State} (h : CopyOutcome n start s t) : Untouched s t := by
  obtain ⟨e, -, rfl⟩ | ⟨len, dist, bs, lsym, lextra, dsym, dextra, -, -, rfl⟩ := h
  · exact untouched_raise e n s
  · exact untouched_recordItem _ _ n bs s

theorem untouched_symbolRow {n : Nat} {o : StepResult} {s t : State} (hrow : SymbolRow s n o) (h : o = .next t) :
    Untouched s t := by
  cases hrow with
  | literal n b =>
    obtain ⟨-, -, rfl⟩ := literalElement_next h
    exact untouched_recordItem _ _ n [b] s
  | endOfBlock n =>
    obtain ⟨-, rfl⟩ := endOfBlockElement_next h
    constructor <;> simp
  | badSymbol n =>
    cases h
    exact untouched_raise _ n s
  | length dt m =>
    obtain ⟨k, -, hout⟩ := matchElement_next h
    exact untouched_copy hout

/-- The rows of the symbol loop: of the literal/length tables, and the distance rows. -/
def isSymbolRow (i : Instr) : Bool :=
  (litPart? i).isSome || (lenPart? i).isSome || (distPart? i).isSome ||
    match i with
    | .eob | .eobDyn _ | .badLit286 | .badLit287 | .badLitDyn _ _ => true
    | _ => false

theorem untouched_exec {i : Instr} {s t : State} (hi : isSymbolRow i = true) (h : exec i s = .next t) :
    Untouched s t := by
  simp only [isSymbolRow, Bool.or_eq_true, Option.isSome_iff_exists] at hi
  obtain ((⟨p, hp⟩ | ⟨m, hm⟩) | ⟨q, hq⟩) | hi := hi
  · exact untouched_symbolRow (symbolRow_of_litPart hp s) h
  · exact untouched_symbolRow (symbolRow_of_lenPart hm s) h
  · obtain hx | hx := exec_of_distPart hq s <;> rw [hx] at h
    · exact untouched_copy (copyElement_next h)
    · exact untouched_copy (badDistanceElement_next (start := 0) h)
  · cases i with
    | eob => exact untouched_symbolRow (.endOfBlock 7) h
    | eobDyn n => exact untouched_symbolRow (.endOfBlock n) h
    | badLit286 | badLit287 => exact untouched_symbolRow (.badSymbol 8) h
    | badLitDyn n sym => exact untouched_symbolRow (.badSymbol n) h
    | _ => cases hi

/-! ## The headers and the code-length rows -/

theorem rowFrame_clEntry {i : Instr} {n : Nat} {s t : State} (hi : isClEntry i = true) (h : ClOutcome n s t) :
    RowFrame i s t := by
  obtain rfl | ⟨-, sym, extra, r, v, -, -, -, rfl⟩ := h
  · exact (untouched_raise _ n s).rowFrame i
  · simp [RowFrame, hi]

theorem rowFrame_bhdr {i : Instr} {f : Bool} {btype : BitVec 2} {c : CoreState} {s : State}
    (hi : isBhdr i = true) : RowFrame i s { blockBegun f btype s with st := c } := by
  simp [RowFrame, hi]

/-- Settles O38: the rows of the symbol loop write none of these registers; each of the others is read off the rule of
its row. -/
theorem registersChangeOnlyInTheirRows : Obligations.RegistersChangeOnlyInTheirRows := by
  intro i s t h
  show RowFrame i s t
  cases i with
  | zhdr cmf flg =>
    obtain ⟨-, rfl⟩ := execZhdr_next h
    simp [RowFrame, isBhdr]
  | bhdrStored f =>
    obtain ⟨-, rfl⟩ := execBhdrStored_next h
    exact rowFrame_bhdr rfl
  | bhdrFixed f =>
    obtain ⟨-, rfl⟩ := execBhdrFixed_next h
    simp [RowFrame, isBhdr]
  | bhdrDynamic f =>
    obtain ⟨-, rfl⟩ := execBhdrDynamic_next h
    exact rowFrame_bhdr rfl
  | bhdrReserved f =>
    cases h
    simp [RowFrame, isBhdr]
  | sthdr len nlen =>
    obtain rfl | rfl := execSthdr_next h
    · simp [RowFrame]
    · simp [RowFrame]
  | stbyte b =>
    obtain ⟨-, -, rfl⟩ := execStbyte_next h
    simp [RowFrame]
  | dynhdr hl hd hc cl =>
    obtain ⟨-, rfl | ⟨tab, -, rfl⟩⟩ := execDynhdr_next h
    · simp [RowFrame]
    · simp [RowFrame]
  | clLen n v => exact rowFrame_clEntry rfl (execClLen_next h)
  | cl16 n e => exact rowFrame_clEntry rfl (execCl16_next h)
  | cl17 n e => exact rowFrame_clEntry rfl (execCl17_next h)
  | cl18 n e => exact rowFrame_clEntry rfl (execCl18_next h)
  | ztrl a =>
    obtain ⟨-, rfl⟩ := execZtrl_next h
    simp [RowFrame]
  | _ => exact (untouched_exec rfl h).rowFrame _

end Sys2Proof.Machine

/-! # Reset, the host's registers and the code-length lengths -/

namespace Sys2Proof.Machine

/-! ## Reset and the boot states -/

/-- Settles O1: the values are those of `State.reset`, and RESET takes IN from the state before it. -/
theorem resetHoldsTheSpecsValues : Obligations.ResetHoldsTheSpecsValues := by
  exact ⟨rfl, rfl, rfl, rfl, rfl, rfl, rfl, rfl, rfl, rfl, rfl, rfl, rfl, rfl, rfl, rfl, rfl, rfl, rfl, rfl, rfl, rfl,
    rfl, rfl, rfl, rfl, rfl, rfl, rfl, rfl, rfl, rfl, rfl, hostReset_inMem⟩

theorem Fresh.outInv {s : State} (h : Fresh s) : OutInv s := by
  constructor
  case composition => simp [outBytes, h.outLen, h.trace, recordsBytes, readBytesAt]
  all_goals simp [h.trace]

/-- Settles O55: a boot state is fresh. -/
theorem bootStatesMeetTheInvariants : Obligations.BootStatesMeetTheInvariants := by
  intro p moves hp
  have h := fresh_bootState p moves
  exact ⟨h.inv hp wf_nil (within_zero _) List.length_replicate, h.traceInv, h.outInv⟩

/-! ## Register writes -/

/-- A step that finds a register write waiting makes it. -/
theorem step_writeReg {s : State} {i v : Nat} {ms : List HostMove} (h : s.host = .writeReg i v :: ms) :
    step s = .next (writeHostReg i v { s with host := ms }) := by
  simp only [step, engineStep, h, hostMove]

/-- A host register that is wide enough carries a bit as written (log 12). -/
theorem testBit_regValue {s : State} {v k : Nat} (h : ∀ w, s.params.regW = some w → k < w) :
    (regValue s v).testBit k = v.testBit k := by
  unfold regValue
  split
  · rfl
  · rw [Nat.testBit_mod_two_pow, decide_eq_true (h _ ‹_›), Bool.true_and]

/-- Whatever the width, no bit is set that was not written. -/
theorem testBit_regValue_of_clear {s : State} {v k : Nat} (h : v.testBit k = false) :
    (regValue s v).testBit k = false := by
  unfold regValue
  split
  · exact h
  · rw [Nat.testBit_mod_two_pow, h, Bool.and_false]

/-- A bounded P_REG_W is at least 3: it holds P_IN_ADDR_W + 3 (00_scope.md R8). -/
theorem three_le_regW {p : Params} {w : Nat} (hp : p.ok = true) (hw : p.regW = some w) : 3 ≤ w := by
  cases ha : p.inAddrW with
  | none => simp [Params.ok, hw, ha] at hp
  | some a =>
    simp only [Params.ok, hw, ha, Bool.and_eq_true, decide_eq_true_eq] at hp
    omega

/-- Settles O3: CTRL is wide enough to carry bit 1, and RESET comes before every other case. -/
theorem resetMoveRestoresTheResetState : Obligations.ResetMoveRestoresTheResetState := by
  intro s v ms hp hhost hv
  have hbit : (regValue { s with host := ms } v).testBit 1 = true :=
    (testBit_regValue fun w hw => Nat.lt_of_lt_of_le (by decide : 1 < 3) (three_le_regW hp hw)).trans hv
  rw [step_writeReg hhost, writeHostReg, writeCtrl, if_pos hbit]
  rfl

/-- CTRL without RESET changes nothing unless it starts a decode outside BUSY (10_state.md R29). -/
theorem writeCtrl_ignored {v : Nat} {s : State} (hreset : v.testBit 1 = false)
    (hstart : v.testBit 0 = false ∨ busy s = true) : writeCtrl v s = s := by
  obtain h | h := hstart <;> simp [writeCtrl, hreset, h]

/-- Settles O4: each write falls to a case of the register that changes nothing. -/
theorem ignoredRegisterWrites : Obligations.IgnoredRegisterWrites := by
  intro s i v ms hhost hcase
  rw [step_writeReg hhost]
  congr 1
  obtain ⟨h0, h2⟩ | ⟨rfl, hbit0, hbit1⟩ | ⟨hbusy, rfl, hbit1⟩ | ⟨hbusy, rfl⟩ := hcase
  · unfold writeHostReg
    split
    · exact absurd rfl h0
    · exact absurd rfl h2
    · rfl
  · exact writeCtrl_ignored (testBit_regValue_of_clear hbit1) (.inl (testBit_regValue_of_clear hbit0))
  · exact writeCtrl_ignored (testBit_regValue_of_clear hbit1) (.inr hbusy)
  · exact if_pos hbusy

/-- Settles O5: outside BUSY the one test left is the bound P_MAX_IN. -/
theorem inLenWriteIsWriteAnyReadLegal : Obligations.InLenWriteIsWriteAnyReadLegal := by
  intro s v ms hhost hbusy
  rw [step_writeReg hhost, writeHostReg, writeInLen, if_neg (by simpa [busy] using hbusy)]
  constructor
  · intro hfit
    rw [if_pos (by exact hfit)]
    rfl
  · intro hfit
    rw [if_neg (by simpa [regValue] using hfit)]

/-! ## Register reads -/

/-- Joining words adds their values, the upper one shifted. -/
theorem toNat_append_add {m n : Nat} (x : BitVec m) (y : BitVec n) : (x ++ y).toNat = x.toNat * 2 ^ n + y.toNat := by
  rw [BitVec.toNat_append, ← Nat.shiftLeft_add_eq_or_of_lt y.isLt, Nat.shiftLeft_eq]

/-- The ZHDR word as a sum of its fields (10_state.md R28). -/
theorem zhdrWord_toNat (cmf flg : Byte) :
    (zhdrWord cmf flg).toNat =
      cmf.toNat + 2 ^ 8 * flg.toNat + 2 ^ 16 * (cmf.toNat % 16) + 2 ^ 20 * (cmf.toNat / 16) +
        2 ^ 24 * (flg.toNat % 32) + 2 ^ 29 * (flg.toNat / 32 % 2) + 2 ^ 30 * (flg.toNat / 64) := by
  have hc := cmf.isLt
  have hf := flg.isLt
  simp only [zhdrWord, toNat_append_add, flevelOf, fdictOf, fcheckOf, cinfoOf, cmOf, BitVec.extractLsb'_toNat,
    Nat.shiftRight_eq_div_pow]
  omega

/-- Fields of a sum of shifted fields, each within its width. -/
theorem fields_of_sum {w cmf flg cm cinfo fcheck fdict flevel : Nat} (hcmf : cmf < 2 ^ 8) (hflg : flg < 2 ^ 8)
    (hcm : cm < 2 ^ 4) (hcinfo : cinfo < 2 ^ 4) (hfcheck : fcheck < 2 ^ 5) (hfdict : fdict < 2)
    (hw : w = cmf + 2 ^ 8 * flg + 2 ^ 16 * cm + 2 ^ 20 * cinfo + 2 ^ 24 * fcheck + 2 ^ 29 * fdict + 2 ^ 30 * flevel) :
    w % 2 ^ 8 = cmf ∧ w / 2 ^ 8 % 2 ^ 8 = flg ∧ w / 2 ^ 16 % 2 ^ 4 = cm ∧ w / 2 ^ 20 % 2 ^ 4 = cinfo ∧
      w / 2 ^ 24 % 2 ^ 5 = fcheck ∧ w / 2 ^ 29 % 2 = fdict ∧ w / 2 ^ 30 = flevel := by
  omega

/-- Outside BUSY every register can be read (45_engine.md R275). -/
theorem hostReadReg_of_not_busy {s : State} (h : busy s = false) (i : Nat) : hostReadReg s i = some (hostReg s i) :=
  if_pos (.inr h)

theorem hostReg_reserved (s : State) {i : Nat} (h : 0xC ≤ i) : hostReg s i = 0 := by
  obtain ⟨k, rfl⟩ := Nat.exists_eq_add_of_le h
  rw [Nat.add_comm]
  rfl

@[simp] theorem regValue_zero (s : State) : regValue s 0 = 0 := by
  unfold regValue
  split
  · rfl
  · exact Nat.zero_mod _

/-- Settles O6: the registers are read off `hostReg`, and the fields of the ZHDR word off its sum. -/
theorem hostRegistersShowTheirContents : Obligations.HostRegistersShowTheirContents := by
  refine ⟨⟨rfl, rfl, rfl, rfl, rfl, rfl, rfl, rfl⟩, fun s hbusy => ?_⟩
  simp only [hostReadReg_of_not_busy hbusy, Option.some.injEq]
  have hpartial : (s.trace.getLast?).any BlockRecord.isPartial = partialFlag s := by
    unfold partialFlag
    cases s.trace.getLast? <;> rfl
  have hc := s.zcmf.isLt
  have hf := s.zflg.isLt
  refine ⟨fun hinv hst => ?_, rfl, rfl, rfl, rfl, rfl, rfl, rfl, rfl, rfl, rfl, ?_,
    fun i hi => hostReg_reserved s hi, ?_⟩
  · obtain ⟨hpos, hblk⟩ := hinv.error_zero hst
    simp [hostReg, hinv.error_iff.mpr hst, hpos, hblk, errorNumber]
  · rw [hpartial]
    rfl
  · exact fields_of_sum hc hf (Nat.mod_lt _ (by decide)) (by omega) (Nat.mod_lt _ (by decide))
      (Nat.mod_lt _ (by decide)) (zhdrWord_toNat s.zcmf s.zflg)

/-- Settles O7: one case for each value of ST. -/
theorem statusShowsStateAndSt : Obligations.StatusShowsStateAndSt := by
  refine ⟨⟨rfl, rfl, rfl, rfl, rfl, rfl, rfl, rfl, rfl, rfl, rfl, rfl, rfl⟩, fun s => ⟨if_pos (.inl rfl), ?_⟩⟩
  unfold statusWord busy
  cases s.st <;> decide

/-! ## The code-length lengths -/

/-- A place that is not written keeps its value. -/
theorem foldl_set_getElem?_of_not_mem {α : Type} {ps : List (Nat × α)} {l : List α} {k : Nat}
    (h : k ∉ ps.map Prod.fst) : (ps.foldl (fun acc p => acc.set p.1 p.2) l)[k]? = l[k]? := by
  induction ps generalizing l with
  | nil => rfl
  | cons p ps ih =>
    simp only [List.map_cons, List.mem_cons, not_or] at h
    rw [List.foldl_cons, ih h.2, List.getElem?_set_ne (Ne.symm h.1)]

/-- Of distinct places, each holds what was written to it. -/
theorem foldl_set_getElem?_of_mem {α : Type} {ps : List (Nat × α)} {l : List α} {k : Nat} {v : α}
    (hnodup : (ps.map Prod.fst).Nodup) (hmem : (k, v) ∈ ps) (hk : k < l.length) :
    (ps.foldl (fun acc p => acc.set p.1 p.2) l)[k]? = some v := by
  induction ps generalizing l with
  | nil => cases hmem
  | cons p ps ih =>
    rw [List.map_cons, List.nodup_cons] at hnodup
    rw [List.foldl_cons]
    obtain rfl | hmem := List.mem_cons.mp hmem
    · rw [foldl_set_getElem?_of_not_mem hnodup.1, List.getElem?_set_self hk]
    · exact ih hnodup.2 hmem (by rw [List.length_set]; exact hk)

theorem order_getElem_lt {i : Nat} (hi : i < order.length) : order[i] < 19 := by
  have h : ∀ k ∈ order, k < 19 := by decide
  exact h _ (List.getElem_mem hi)

/-- Settles O23: ORDER has no place twice, so the place ORDER[i] is written once, by length i, or keeps its 0. -/
theorem clLengthsGoToTheirOrder : Obligations.ClLengthsGoToTheirOrder := by
  intro cl hcl
  refine ⟨cllOf_length cl, fun i hi => ?_⟩
  have hnodup : order.Nodup := by decide
  have hfst : (order.zip cl).map Prod.fst = order.take cl.length := by
    rw [List.zip_eq_zip_take_min, List.map_fst_zip (by simp), Nat.min_eq_right (by exact hcl)]
  have hi' : i < order.length := hi
  show (cllOf cl)[order.getD i 0]? = _
  rw [List.getD_eq_getElem _ _ hi']
  by_cases hlt : i < cl.length
  · rw [List.getD_eq_getElem _ _ hlt]
    refine foldl_set_getElem?_of_mem (hfst ▸ hnodup.sublist (List.take_sublist _ _)) ?_ ?_
    · exact List.mem_iff_getElem.mpr ⟨i, by rw [List.length_zip]; omega, by simp⟩
    · rw [List.length_replicate]
      exact order_getElem_lt hi'
  · rw [List.getD_eq_default _ _ (by omega), cllOf, foldl_set_getElem?_of_not_mem, List.getElem?_replicate,
      if_pos (order_getElem_lt hi')]
    rw [hfst]
    intro hmem
    obtain ⟨j, hj, heq⟩ := List.mem_iff_getElem.mp hmem
    rw [List.getElem_take] at heq
    have := (hnodup.getElem_inj_iff).mp heq
    rw [List.length_take] at hj
    omega

end Sys2Proof.Machine

/-! # Memory and the host's reads

Read after write, the canonical form, and what the host can read outside BUSY. -/

namespace Sys2Proof.Machine

/-! ## Reads of a canonical memory -/

/-- An address no cell has reads as an unlisted byte. -/
theorem readByteAt_of_forall_ne {m : Memory} {a : Nat} (h : ∀ c ∈ m, c.1 ≠ a) : readByteAt m a = unlistedByte := by
  induction m with
  | nil => rfl
  | cons c m ih =>
    obtain ⟨hc, hm⟩ := List.forall_mem_cons.mp h
    exact (if_neg hc).trans (ih hm)

/-- In a canonical memory no address below the first cell is listed. -/
theorem readByteAt_of_forall_lt {m : Memory} {a : Nat} (h : ∀ c ∈ m, a < c.1) : readByteAt m a = unlistedByte :=
  readByteAt_of_forall_ne fun c hc => Nat.ne_of_gt (h c hc)

theorem readByteAt_cons (k : Nat) (v : Byte) (m : Memory) (a : Nat) :
    readByteAt ((k, v) :: m) a = if k = a then v else readByteAt m a := rfl

/-- Read after write: the byte written at its address, the old byte at any other (20_memory.md R76 to R78). -/
theorem readByteAt_writeByteAt {m : Memory} (h : m.wf) (a k : Nat) (b : Byte) :
    readByteAt (writeByteAt m a b) k = if k = a then b else readByteAt m k := by
  induction m with
  | nil =>
    unfold writeByteAt
    split
    · simp [readByteAt, *]
    · simp [readByteAt, eq_comm]
  | cons c m ih =>
    obtain ⟨x, v⟩ := c
    obtain ⟨hlt, -, hm⟩ := wf_cons.mp h
    have hbelow (y : Nat) (hy : y ≤ x) : readByteAt m y = unlistedByte :=
      readByteAt_of_forall_lt fun c hc => Nat.lt_of_le_of_lt hy (hlt c hc)
    unfold writeByteAt
    split
    next hax =>
      -- below the first cell: a byte that is not listed there
      have ha := hbelow a (Nat.le_of_lt hax)
      split
      · grind [readByteAt_cons]
      · simp only [readByteAt_cons, eq_comm]
    next =>
      split
      next heq =>
        -- at the first cell, which is replaced or taken out
        subst heq
        have ha := hbelow a le_rfl
        split
        · grind [readByteAt_cons]
        · grind [readByteAt_cons]
      next hne =>
        -- past the first cell, which keeps its byte
        rw [readByteAt_cons, readByteAt_cons, ih hm]
        grind

/-- The first cell of a canonical memory is at or below every byte that reads as listed. -/
theorem first_le_of_read_listed {k a : Nat} {v : Byte} {m : Memory} (h : Memory.wf ((k, v) :: m))
    (ha : readByteAt ((k, v) :: m) a ≠ unlistedByte) : k ≤ a := by
  obtain ⟨hlt, -, -⟩ := wf_cons.mp h
  refine Nat.le_of_not_lt fun hak => ha (readByteAt_of_forall_lt ?_)
  exact List.forall_mem_cons.mpr ⟨hak, fun c hc => Nat.lt_trans hak (hlt c hc)⟩

@[simp] theorem readByteAt_first (k : Nat) (v : Byte) (m : Memory) : readByteAt ((k, v) :: m) k = v := if_pos rfl

/-- Canonical memories that read the same everywhere are equal: their first cells are each at or below the other. -/
theorem eq_of_readByteAt_eq {m m' : Memory} (h : m.wf) (h' : m'.wf) (heq : ∀ a, readByteAt m a = readByteAt m' a) :
    m = m' := by
  induction m generalizing m' with
  | nil =>
    cases m' with
    | nil => rfl
    | cons d m' =>
      obtain ⟨-, hv, -⟩ := wf_cons.mp h'
      exact absurd ((heq d.1).trans (readByteAt_first _ _ _)).symm hv
  | cons c m ih =>
    obtain ⟨k, v⟩ := c
    obtain ⟨hlt, hv, hm⟩ := wf_cons.mp h
    cases m' with
    | nil => exact absurd ((readByteAt_first _ _ _).symm.trans (heq k)) hv
    | cons d m' =>
      obtain ⟨k', v'⟩ := d
      obtain ⟨hlt', hv', hm'⟩ := wf_cons.mp h'
      obtain rfl : k = k' := Nat.le_antisymm (first_le_of_read_listed h (by rw [heq, readByteAt_first]; exact hv'))
        (first_le_of_read_listed h' (by rw [← heq, readByteAt_first]; exact hv))
      obtain rfl : v = v' := by simpa using heq k
      congr 1
      refine ih hm hm' fun a => ?_
      obtain rfl | hne := eq_or_ne k a
      · rw [readByteAt_of_forall_lt hlt, readByteAt_of_forall_lt hlt']
      · simpa [readByteAt_cons, hne] using heq a

/-- Settles O52: read after write, and equality from equal reads. -/
theorem memoryIsWhatItsReadsSay : Obligations.MemoryIsWhatItsReadsSay :=
  ⟨fun _ a k b h => readByteAt_writeByteAt h a k b, fun _ _ h h' heq => eq_of_readByteAt_eq h h' heq⟩

/-! ## The host's reads -/

/-- Settles O8: each read is guarded by BUSY, but for STATUS. -/
theorem hostReadsResultsOnlyOutsideBusy : Obligations.HostReadsResultsOnlyOutsideBusy := by
  intro s i
  constructor
  · intro hbusy
    refine ⟨fun hi => if_neg ?_, if_neg ?_, if_neg ?_⟩
    · simp [hi, hbusy]
    · simp [hbusy]
    · simp [hbusy]
  · intro hbusy
    exact ⟨fun hi => if_pos ⟨hbusy, hi⟩, fun _ hi => if_pos ⟨hbusy, hi⟩⟩

end Sys2Proof.Machine

/-! # Which bytes of OUT a row writes -/

namespace Sys2Proof.Machine

/-- A list of writes leaves every address outside the list's alone. -/
theorem readByteAt_writeBytesAt_of_outside {m : Memory} (h : m.wf) {a k : Nat} (bs : List Byte)
    (hk : ¬ (a ≤ k ∧ k < a + bs.length)) : readByteAt (writeBytesAt m a bs) k = readByteAt m k := by
  induction bs generalizing m a with
  | nil => rfl
  | cons b bs ih =>
    rw [List.length_cons] at hk
    rw [writeBytesAt, ih (writeByteAt_wf h a b) (by omega), readByteAt_writeByteAt h, if_neg (by omega)]

/-- `t` has the output of `s`. -/
def SameOut (s t : State) : Prop := t.out = s.out ∧ t.outLen = s.outLen

/-- `t` has the output of `s` with the bytes `bs` behind it. -/
def OutGrown (bs : List Byte) (s t : State) : Prop :=
  t.out = writeBytesAt s.out s.outLen bs ∧ t.outLen = s.outLen + bs.length

/-! ## The rows that append nothing -/

theorem sameOut_clOutcome {n : Nat} {s t : State} (h : ClOutcome n s t) : SameOut s t := by
  obtain rfl | ⟨-, sym, extra, r, v, -, -, -, rfl⟩ := h
  · simp [SameOut]
  · simp [SameOut]

theorem sameOut_endOfBlockElement {n : Nat} {s t : State} (h : endOfBlockElement n s = .next t) : SameOut s t := by
  obtain ⟨-, rfl⟩ := endOfBlockElement_next h
  exact ⟨rfl, rfl⟩

theorem sameOut_badSymbolElement {n : Nat} {s t : State} (h : badSymbolElement n s = .next t) : SameOut s t := by
  cases h
  simp [SameOut]

theorem sameOut_exec {i : Instr} {s t : State} (hi : appendsBytes i = false) (h : exec i s = .next t) :
    SameOut s t := by
  cases i with
  | zhdr cmf flg =>
    obtain ⟨-, rfl⟩ := execZhdr_next h
    simp [SameOut]
  | bhdrStored f =>
    obtain ⟨-, rfl⟩ := execBhdrStored_next h
    exact ⟨rfl, rfl⟩
  | bhdrFixed f =>
    obtain ⟨-, rfl⟩ := execBhdrFixed_next h
    exact ⟨rfl, rfl⟩
  | bhdrDynamic f =>
    obtain ⟨-, rfl⟩ := execBhdrDynamic_next h
    exact ⟨rfl, rfl⟩
  | bhdrReserved f =>
    cases h
    simp [SameOut]
  | sthdr len nlen =>
    obtain rfl | rfl := execSthdr_next h
    · simp [SameOut]
    · simp [SameOut]
  | dynhdr hl hd hc cl =>
    obtain ⟨-, rfl | ⟨tab, -, rfl⟩⟩ := execDynhdr_next h
    · simp [SameOut]
    · exact ⟨rfl, rfl⟩
  | clLen n v => exact sameOut_clOutcome (execClLen_next h)
  | cl16 n e => exact sameOut_clOutcome (execCl16_next h)
  | cl17 n e => exact sameOut_clOutcome (execCl17_next h)
  | cl18 n e => exact sameOut_clOutcome (execCl18_next h)
  | eob | eobDyn => exact sameOut_endOfBlockElement h
  | badLit286 | badLit287 | badLitDyn => exact sameOut_badSymbolElement h
  | ztrl a =>
    obtain ⟨-, rfl⟩ := execZtrl_next h
    simp [SameOut]
  | _ => cases hi

/-! ## The rows that append -/

theorem outGrown_literalElement {n : Nat} {b : Byte} {s t : State} (h : literalElement n b s = .next t) :
    OutGrown [b] s t := by
  obtain ⟨-, -, rfl⟩ := literalElement_next h
  exact ⟨rfl, rfl⟩

theorem outGrown_execStbyte {b : Byte} {s t : State} (h : execStbyte b s = .next t) : OutGrown [b] s t := by
  obtain ⟨-, -, rfl⟩ := execStbyte_next h
  simp [OutGrown]

/-- What a MATCH whose length half is `m` does to OUT: its length's bytes, or nothing when it raises
(44_symbols.md R236). -/
def MatchOut (m : LenPart) (s t : State) : Prop :=
  SameOut s t ∨ ∃ bs, bs.length = lenBase m.sym + m.extra ∧ OutGrown bs s t

theorem matchOut_raise (m : LenPart) (e : ErrorCode) (n : Nat) (s : State) : MatchOut m s (raise e (advance n s)) :=
  .inl ⟨by simp, by simp⟩

theorem matchOut_copyElement {m : LenPart} {p : DistPart} {s t : State} (h : copyElement m p s = .next t) :
    MatchOut m s t := by
  simp only [copyElement] at h
  split at h
  · cases h
    exact matchOut_raise m _ _ s
  · obtain ⟨u, hu, h⟩ := andThen_next.mp h
    obtain ⟨rfl, -⟩ := outAppendAll_eq_next hu
    obtain ⟨-, rfl⟩ := emitItem_eq_next.mp h
    exact .inr ⟨_, resolve_length _ _ _, rfl, rfl⟩

theorem matchOut_badDistanceElement {m : LenPart} {n : Nat} {s t : State} (h : badDistanceElement n s = .next t) :
    MatchOut m s t := by
  cases h
  exact matchOut_raise m _ n s

theorem matchOut_distanceElement {m : LenPart} {p : DistPart} {s t : State} (h : distanceElement m p s = .next t) :
    MatchOut m s t := by
  unfold distanceElement at h
  split at h
  · exact matchOut_copyElement h
  · exact matchOut_badDistanceElement h

theorem MatchOut.of_advance {m : LenPart} {n : Nat} {s t : State} (h : MatchOut m (advance n s) t) : MatchOut m s t := h

theorem matchOut_matchElement {dt : HuffTable} {m : LenPart} {s t : State} (h : matchElement dt m s = .next t) :
    MatchOut m s t := by
  simp only [matchElement] at h
  split at h
  · exact (matchOut_distanceElement h).of_advance
  · cases h
    exact (matchOut_raise m _ _ _).of_advance
  · cases h
    exact (matchOut_raise m _ _ _).of_advance

/-- Settles O39: a row's class says which bytes it appends, and a write outside an address leaves it alone. -/
theorem outBytesChangeOnlyWhereAppended : Obligations.OutBytesChangeOnlyWhereAppended := by
  intro i s t hwf h
  refine ⟨fun hi => ?_, fun b hi => ?_, fun m hi => ?_⟩
  · obtain ⟨hout, hlen⟩ := sameOut_exec hi h
    exact ⟨hlen, fun a => by rw [hout]⟩
  · have hgrown : OutGrown [b] s t := by
      obtain rfl | ⟨n, hn⟩ := hi
      · exact outGrown_execStbyte h
      · rw [exec_of_litPart hn] at h
        exact outGrown_literalElement h
    obtain ⟨hout, hlen⟩ := hgrown
    refine ⟨hlen, fun a => ?_⟩
    rw [hout]
    exact readByteAt_writeByteAt hwf s.outLen a b
  · have hmatch : MatchOut m s t := by
      obtain hm | ⟨p, hp⟩ := hi
      · rw [exec_of_lenPart hm] at h
        exact matchOut_matchElement h
      · obtain hx | hx := exec_of_distPart hp s <;> rw [hx] at h
        · exact matchOut_copyElement h
        · exact matchOut_badDistanceElement h
    obtain ⟨hout, hlen⟩ | ⟨bs, hbs, hout, hlen⟩ := hmatch
    · exact ⟨.inl hlen, fun a _ => by rw [hout]⟩
    · refine ⟨.inr (by rw [hlen, hbs]), fun a ha => ?_⟩
      rw [hout]
      exact readByteAt_writeBytesAt_of_outside hwf bs (hlen ▸ ha)

end Sys2Proof.Machine

/-! # Which bytes of IN a step reads

Nothing but the bits at the cursor comes from IN, and those stand below IN_LEN. Every operation therefore commutes with
a change of IN; a row that reads its own distance half does so where the two memories agree below IN_LEN. -/

namespace Sys2Proof.Machine

/-- `s` with the contents of IN replaced. -/
def withIn (m : Memory) (s : State) : State := { s with inMem := m }

/-! ## The bits at the cursor -/

theorem inBit_congr {m m' : Memory} {n k : Nat} (h : ∀ a, a < n → readByteAt m a = readByteAt m' a) (hk : k < 8 * n) :
    inBit m k = inBit m' k := by
  rw [inBit, inBit, h (k / 8) (by omega)]

theorem bitsAt_congr {m m' : Memory} {n : Nat} (h : ∀ a, a < n → readByteAt m a = readByteAt m' a) {j k : Nat}
    (hjk : j = 0 ∨ j + k ≤ 8 * n) : bitsAt m j k = bitsAt m' j k := by
  induction j generalizing k with
  | zero => rfl
  | succ j ih => rw [bitsAt, bitsAt, inBit_congr h (by omega), ih (by omega)]

/-- The stream ends at IN_LEN (40_bitreader.md R120). -/
theorem stream_withIn {m : Memory} {s : State} (h : ∀ a, a < s.inLen → readByteAt m a = readByteAt s.inMem a) :
    stream (withIn m s) = stream s :=
  bitsAt_congr h (by show avail s = 0 ∨ avail s + bitOffset s ≤ _; unfold avail; omega)

/-! ## The operations

Each lemma takes the state with the other IN as `s'` with `s' = withIn m s`, so that it applies to any spelling of it. -/

/-- Two operations in turn commute with a change of IN when each does. -/
theorem andThen_withIn {m : Memory} {o o' : StepResult} {f f' : State → StepResult} (ho : o' = mapNext (withIn m) o)
    (hf : ∀ t, f' (withIn m t) = mapNext (withIn m) (f t)) : andThen o' f' = mapNext (withIn m) (andThen o f) := by
  subst ho
  cases o with
  | next t => exact hf t
  | fault r => rfl
  | refused r => rfl

theorem advance_withIn (m : Memory) (n : Nat) (s : State) : advance n (withIn m s) = withIn m (advance n s) := rfl

theorem skipBytes_withIn (m : Memory) (n : Nat) (s : State) : skipBytes n (withIn m s) = withIn m (skipBytes n s) := by
  unfold skipBytes alignToByte
  rw [← advance_withIn, apply_ite (withIn m)]
  rfl

theorem lensNext_withIn (m : Memory) (s : State) : lensNext (withIn m s) = withIn m (lensNext s) := by
  unfold lensNext
  rw [apply_ite (withIn m)]
  rfl

theorem keepPartial_withIn (m : Memory) (p : PartialRead) (s : State) :
    keepPartial p (withIn m s) = withIn m (keepPartial p s) := by
  cases p <;> rfl

theorem raise_withIn (m : Memory) (e : ErrorCode) (s : State) : raise e (withIn m s) = withIn m (raise e s) := by
  have hopen : (withIn m s).blkOpen = s.blkOpen := rfl
  unfold raise
  rw [hopen]
  cases s.blkOpen <;> rfl

section
variable {m : Memory} {s s' : State} (h : s' = withIn m s := by rfl)
include h

theorem next_raise_withIn {e : ErrorCode} :
    (.next (raise e s') : StepResult) = mapNext (withIn m) (.next (raise e s)) :=
  congrArg Host.Outcome.next (h ▸ raise_withIn m e s)

theorem outAppend_withIn {b : Byte} : outAppend b s' = mapNext (withIn m) (outAppend b s) := by
  subst h
  unfold outAppend
  rw [apply_ite (mapNext (withIn m))]
  rfl

theorem outAppendAll_withIn {bs : List Byte} : outAppendAll bs s' = mapNext (withIn m) (outAppendAll bs s) := by
  induction bs generalizing s s' with
  | nil => exact congrArg Host.Outcome.next h
  | cons b bs ih => exact andThen_withIn (outAppend_withIn h) fun t => ih rfl

theorem emitItem_withIn {k : ItemKind} {b : Nat} : emitItem k b s' = mapNext (withIn m) (emitItem k b s) := by
  subst h
  unfold emitItem
  rw [apply_ite (mapNext (withIn m))]
  rfl

theorem appendRecord_withIn {r : BlockRecord} : appendRecord r s' = mapNext (withIn m) (appendRecord r s) := by
  subst h
  unfold appendRecord
  rw [apply_ite (mapNext (withIn m)), apply_ite (mapNext (withIn m))]
  rfl

theorem openBlock_withIn {k : BlockKind} : openBlock k s' = mapNext (withIn m) (openBlock k s) := by
  subst h
  exact andThen_withIn appendRecord_withIn fun _ => rfl

end

/-! ## The rows that read no stream -/

section
variable (m : Memory) (s : State)

theorem execZhdr_withIn (cmf flg : Byte) :
    execZhdr cmf flg (withIn m s) = mapNext (withIn m) (execZhdr cmf flg s) := by
  simp only [execZhdr, skipBytes_withIn]
  exact andThen_withIn appendRecord_withIn fun _ => rfl

theorem execZtrl_withIn (a : BitVec 32) : execZtrl a (withIn m s) = mapNext (withIn m) (execZtrl a s) := by
  simp only [execZtrl, skipBytes_withIn]
  exact andThen_withIn appendRecord_withIn fun _ => rfl

theorem beginBlock_withIn (f : Bool) (b : BitVec 2) :
    beginBlock f b (withIn m s) = mapNext (withIn m) (beginBlock f b s) :=
  openBlock_withIn

theorem execSthdr_withIn (len nlen : BitVec 16) :
    execSthdr len nlen (withIn m s) = mapNext (withIn m) (execSthdr len nlen s) := by
  simp only [execSthdr, skipBytes_withIn]
  cases storedLenOk len nlen with
  | true => rfl
  | false => exact next_raise_withIn

theorem execStbyte_withIn (b : Byte) : execStbyte b (withIn m s) = mapNext (withIn m) (execStbyte b s) := by
  simp only [execStbyte, skipBytes_withIn]
  exact andThen_withIn outAppend_withIn fun t => andThen_withIn emitItem_withIn fun _ => rfl

theorem execDynhdr_withIn (h d : BitVec 5) (c : BitVec 4) (cl : List (BitVec 3)) :
    execDynhdr h d c cl (withIn m s) = mapNext (withIn m) (execDynhdr h d c cl s) := by
  refine andThen_withIn emitItem_withIn fun t => ?_
  cases build ((cllOf cl).map BitVec.toNat) with
  | none => exact next_raise_withIn
  | some tab => rfl

theorem writeLengths_withIn (sym : Nat) (extra : Option Nat) (r : Nat) (v : BitVec 4) (b : Nat) :
    writeLengths sym extra r v b (withIn m s) = mapNext (withIn m) (writeLengths sym extra r v b s) :=
  andThen_withIn emitItem_withIn fun t => congrArg Host.Outcome.next (lensNext_withIn m t)

theorem repeatLengths_withIn (sym extra r : Nat) (v : BitVec 4) (b : Nat) :
    repeatLengths sym extra r v b (withIn m s) = mapNext (withIn m) (repeatLengths sym extra r v b s) := by
  unfold repeatLengths
  rw [apply_ite (mapNext (withIn m)), ← writeLengths_withIn, ← next_raise_withIn]
  rfl

theorem execCl16_withIn (n : Nat) (e : BitVec 2) :
    execCl16 n e (withIn m s) = mapNext (withIn m) (execCl16 n e s) := by
  unfold execCl16
  rw [apply_ite (mapNext (withIn m)), ← repeatLengths_withIn, ← next_raise_withIn]
  rfl

theorem literalElement_withIn (n : Nat) (b : Byte) :
    literalElement n b (withIn m s) = mapNext (withIn m) (literalElement n b s) :=
  andThen_withIn outAppend_withIn fun t => emitItem_withIn

theorem endOfBlockElement_withIn (n : Nat) :
    endOfBlockElement n (withIn m s) = mapNext (withIn m) (endOfBlockElement n s) :=
  andThen_withIn emitItem_withIn fun _ => rfl

theorem copyElement_withIn (l : LenPart) (p : DistPart) :
    copyElement l p (withIn m s) = mapNext (withIn m) (copyElement l p s) := by
  simp only [copyElement, apply_ite (mapNext (withIn m)), advance_withIn]
  congr 1
  · exact next_raise_withIn
  · exact andThen_withIn outAppendAll_withIn fun t => emitItem_withIn

theorem badDistanceElement_withIn (n : Nat) :
    badDistanceElement n (withIn m s) = mapNext (withIn m) (badDistanceElement n s) :=
  next_raise_withIn

theorem distanceElement_withIn (l : LenPart) (p : DistPart) :
    distanceElement l p (withIn m s) = mapNext (withIn m) (distanceElement l p s) := by
  unfold distanceElement
  split
  · exact copyElement_withIn m s l p
  · exact badDistanceElement_withIn m s _

theorem dynTables_withIn : dynTables (withIn m s) = withIn m (dynTables s) := by
  have hlit : litLengths (withIn m s) = litLengths s := rfl
  have hdist : distLengths (withIn m s) = distLengths s := rfl
  unfold dynTables
  rw [hlit, hdist, apply_ite (withIn m), apply_ite (withIn m), raise_withIn]
  congr 2
  cases build (litLengths s) with
  | none => exact raise_withIn m _ s
  | some lt =>
    cases build (distLengths s) with
    | none => exact raise_withIn m _ { s with litTab := lt }
    | some dt => rfl

end

/-! ## The step -/

theorem exec_withIn_of_distPart {i : Instr} {q : LenPart × DistPart} (hq : distPart? i = some q) (m : Memory)
    (s : State) : exec i (withIn m s) = mapNext (withIn m) (exec i s) := by
  cases i with
  | badDist30 | badDist31 | badDistDyn => exact badDistanceElement_withIn m s _
  | _ => cases hq <;> exact copyElement_withIn m s _ _

/-- The rows that append bytes: STBYTE, the literals, and the two halves of a MATCH. -/
theorem appendsBytes_cases {i : Instr} (h : appendsBytes i = true) :
    (∃ b, i = .stbyte b) ∨ (∃ p, litPart? i = some p) ∨ (∃ l, lenPart? i = some l) ∨ ∃ q, distPart? i = some q := by
  unfold appendsBytes at h
  split at h
  · exact .inl ⟨_, rfl⟩
  · exact .inr (by simpa [Option.isSome_iff_exists, or_assoc] using h)

section
variable {m : Memory} {s : State} (h : ∀ a, a < s.inLen → readByteAt m a = readByteAt s.inMem a)
include h

theorem matchElement_withIn (dt : HuffTable) (l : LenPart) :
    matchElement dt l (withIn m s) = mapNext (withIn m) (matchElement dt l s) := by
  have hstream : stream (withIn m (advance l.bits s)) = stream (advance l.bits s) := stream_withIn h
  simp only [matchElement, distanceAt, advance_withIn, hstream]
  split
  · exact distanceElement_withIn m _ l _
  · exact next_raise_withIn
  · exact next_raise_withIn

/-- An instruction reads nothing of IN at or above IN_LEN: a length row reads its distance half, and no other row reads
IN at all. -/
theorem exec_withIn (i : Instr) : exec i (withIn m s) = mapNext (withIn m) (exec i s) := by
  cases ha : appendsBytes i with
  | true =>
    obtain ⟨b, rfl⟩ | ⟨p, hp⟩ | ⟨l, hl⟩ | ⟨q, hq⟩ := appendsBytes_cases ha
    · exact execStbyte_withIn m s b
    · rw [exec_of_litPart hp, exec_of_litPart hp, literalElement_withIn]
    · rw [exec_of_lenPart hl, exec_of_lenPart hl, ← matchElement_withIn h]
      rfl
    · exact exec_withIn_of_distPart hq m s
  | false =>
    cases i with
    | zhdr cmf flg => exact execZhdr_withIn m s cmf flg
    | bhdrStored f | bhdrFixed f | bhdrDynamic f => exact andThen_withIn (beginBlock_withIn m s f _) fun _ => rfl
    | bhdrReserved | badLit286 | badLit287 | badLitDyn => exact next_raise_withIn
    | sthdr len nlen => exact execSthdr_withIn m s len nlen
    | dynhdr hl hd hc cl => exact execDynhdr_withIn m s hl hd hc cl
    | clLen n v => exact writeLengths_withIn m (advance n s) _ _ _ _ _
    | cl16 n e => exact execCl16_withIn m s n e
    | cl17 n e => exact repeatLengths_withIn m (advance (n + 3) s) _ _ _ _ _
    | cl18 n e => exact repeatLengths_withIn m (advance (n + 7) s) _ _ _ _ _
    | eob | eobDyn => exact endOfBlockElement_withIn m s _
    | ztrl a => exact execZtrl_withIn m s a
    | _ => cases ha

theorem fetch_withIn : fetch (withIn m s) = fetch s := by
  have hctx : contextOf (withIn m s) = contextOf s := rfl
  rw [fetch, fetch, hctx, stream_withIn h]

theorem runDecoded_withIn (d : Decoded) : runDecoded d (withIn m s) = mapNext (withIn m) (runDecoded d s) := by
  cases d with
  | elem i n => exact exec_withIn h i
  | endOfData p n => exact next_raise_withIn (keepPartial_withIn m p (advance n s))
  | unusable n => exact next_raise_withIn

end

/-- Settles O16: the element fetched and its distance half come from the stream, which ends at IN_LEN. -/
theorem stepDoesNotDependOnBytesPastTheEnd : Obligations.StepDoesNotDependOnBytesPastTheEnd := by
  intro s m h
  show coreStep (withIn m s) = mapNext (withIn m) (coreStep s)
  have hst : (withIn m s).st = s.st := rfl
  unfold coreStep
  rw [hst, fetch_withIn h]
  split
  · exact congrArg Host.Outcome.next (dynTables_withIn m s)
  · rfl
  · cases fetch s with
    | none => rfl
    | some d => exact runDecoded_withIn h d

end Sys2Proof.Machine

/-! # Fields and codes as bits

Each read of the decoder, by the bits it accepts: a read succeeds exactly on the encoder's bits for what it answers. -/

namespace Sys2Proof.Machine

/-! ## Fields -/

@[simp] theorem fieldBits_length (n v : Nat) : (fieldBits n v).length = n := by
  induction n generalizing v with
  | zero => rfl
  | succ n ih => simp [fieldBits, ih]

@[simp] theorem byteBits_length (b : Byte) : (byteBits b).length = 8 := fieldBits_length 8 b.toNat

/-- `ReadBits` one bit at a time: the first bit is bit 0 (20_memory.md R70). -/
theorem takeBits_succ_cons (n : Nat) (b : Bool) (bs : Bits) :
    takeBits (n + 1) (b :: bs) = (takeBits n bs).map fun p => (b.toNat + 2 * p.1, p.2) := by
  rw [takeBits]
  cases takeBits n bs <;> rfl

/-- `ReadBits(n)` answers the value whose field stands at the front. -/
theorem takeBits_eq_some {n v : Nat} {bs rest : Bits} :
    takeBits n bs = some (v, rest) ↔ v < 2 ^ n ∧ bs = fieldBits n v ++ rest := by
  induction n generalizing v bs with
  | zero =>
    simp only [takeBits, fieldBits, Option.some.injEq, Prod.mk.injEq, pow_zero, Nat.lt_one_iff, List.nil_append]
    exact and_congr_left fun _ => eq_comm
  | succ n ih =>
    cases bs with
    | nil => simp [takeBits, fieldBits]
    | cons b bs =>
      rw [takeBits_succ_cons, Option.map_eq_some_iff, fieldBits, List.cons_append, List.cons.injEq, pow_succ]
      constructor
      · rintro ⟨⟨u, r⟩, hu, hv⟩
        cases hv
        obtain ⟨hlt, rfl⟩ := ih.mp hu
        have hb := b.toNat_lt
        refine ⟨by omega, ?_, by rw [show (b.toNat + 2 * u) / 2 = u by omega]⟩
        cases b <;> simp
      · rintro ⟨hv, rfl, hbs⟩
        refine ⟨(v / 2, rest), ih.mpr ⟨by omega, hbs⟩, ?_⟩
        have hbit : (v % 2 == 1).toNat = v % 2 := by
          obtain h | h := Nat.mod_two_eq_zero_or_one v <;> simp [h]
        rw [hbit, Nat.mod_add_div]

theorem takeBits_fieldBits {n v : Nat} (h : v < 2 ^ n) (rest : Bits) :
    takeBits n (fieldBits n v ++ rest) = some (v, rest) := takeBits_eq_some.mpr ⟨h, rfl⟩

theorem takeBits_word {n : Nat} (x : BitVec n) (rest : Bits) :
    takeBits n (fieldBits n x.toNat ++ rest) = some (x.toNat, rest) := takeBits_fieldBits x.isLt rest

theorem fieldBits_ofNat {n v : Nat} (h : v < 2 ^ n) : fieldBits n (BitVec.ofNat n v).toNat = fieldBits n v := by
  rw [BitVec.toNat_ofNat, Nat.mod_eq_of_lt h]

/-- A field splits at any bit: the low part stands first. -/
theorem fieldBits_mul_add {n b : Nat} (m a : Nat) (h : b < 2 ^ n) :
    fieldBits (n + m) (a * 2 ^ n + b) = fieldBits n b ++ fieldBits m a := by
  induction n generalizing b with
  | zero => simp_all [fieldBits]
  | succ n ih =>
    rw [pow_succ] at h
    have hsum : a * 2 ^ (n + 1) + b = 2 * (a * 2 ^ n) + b := by rw [pow_succ]; ring
    have hmod : (a * 2 ^ (n + 1) + b) % 2 = b % 2 := by rw [hsum]; omega
    have hdiv : (a * 2 ^ (n + 1) + b) / 2 = a * 2 ^ n + b / 2 := by rw [hsum]; omega
    rw [Nat.succ_add, fieldBits, fieldBits, hmod, hdiv, ih (by omega), List.cons_append]

theorem fieldBits_append {m n : Nat} (x : BitVec m) (y : BitVec n) :
    fieldBits (n + m) (x ++ y).toNat = fieldBits n y.toNat ++ fieldBits m x.toNat := by
  rw [toNat_append_add, fieldBits_mul_add m _ y.isLt]

/-! ## Bytes -/

/-- `ReadBytes(n)` on an aligned sequence answers the bytes that stand at the front (30_encoding.md R91). -/
theorem takeBytes_eq_some {n : Nat} {l : List Byte} {bs rest : Bits} :
    takeBytes n bs = some (l, rest) ↔ l.length = n ∧ bs = l.flatMap byteBits ++ rest := by
  induction n generalizing l bs with
  | zero =>
    simp only [takeBytes, Option.some.injEq, Prod.mk.injEq, List.length_eq_zero_iff]
    constructor
    · rintro ⟨rfl, rfl⟩
      exact ⟨rfl, rfl⟩
    · rintro ⟨rfl, rfl⟩
      exact ⟨rfl, rfl⟩
  | succ n ih =>
    constructor
    · intro h
      unfold takeBytes at h
      split at h
      · cases h
      next v r hv =>
        obtain ⟨hlt, rfl⟩ := takeBits_eq_some.mp hv
        split at h
        next l' r' hl =>
          cases h
          obtain ⟨rfl, rfl⟩ := ih.mp hl
          exact ⟨rfl, by rw [List.flatMap_cons, byteBits, fieldBits_ofNat hlt, List.append_assoc]⟩
        next => cases h
    · rintro ⟨hlen, rfl⟩
      cases l with
      | nil => cases hlen
      | cons b l =>
        have hl : takeBytes n (l.flatMap byteBits ++ rest) = some (l, rest) := ih.mpr ⟨Nat.succ.inj hlen, rfl⟩
        rw [List.flatMap_cons, List.append_assoc, takeBytes, byteBits, takeBits_word]
        simp [hl]

/-! ## Code-length lengths -/

/-- The bits of a list of three-bit lengths (30_encoding.md R93). -/
abbrev lensBits (cl : List (BitVec 3)) : Bits := cl.flatMap fun l => fieldBits 3 l.toNat

@[simp] theorem lensBits_length (cl : List (BitVec 3)) : (lensBits cl).length = 3 * cl.length := by
  induction cl with
  | nil => rfl
  | cons v cl ih => simp [lensBits] at ih ⊢; omega

theorem takeLens_lensBits (cl : List (BitVec 3)) (rest : Bits) : takeLens cl.length (lensBits cl ++ rest) = cl := by
  induction cl with
  | nil => rfl
  | cons v cl ih =>
    rw [lensBits, List.flatMap_cons, List.append_assoc, List.length_cons, takeLens, takeBits_word]
    simpa using ih

/-- Where all the lengths could be read, their bits stand at the front. -/
theorem eq_lensBits_of_takeLens {n : Nat} {bs : Bits} (h : (takeLens n bs).length = n) :
    ∃ rest, bs = lensBits (takeLens n bs) ++ rest := by
  induction n generalizing bs with
  | zero => exact ⟨bs, rfl⟩
  | succ n ih =>
    unfold takeLens at h ⊢
    split at h
    next v r hv =>
      obtain ⟨hlt, rfl⟩ := takeBits_eq_some.mp hv
      obtain ⟨rest, hrest⟩ := ih (Nat.succ.inj h)
      refine ⟨rest, ?_⟩
      rw [lensBits, List.flatMap_cons, fieldBits_ofNat hlt, List.append_assoc, ← hrest]
    next => cases h

end Sys2Proof.Machine

/-! # Canonical tables as codes that decode one way

What Decode answers on a table of which no code begins another, and why every table Build answers is one
(41_huffman.md R142, R143, R146). -/

namespace Sys2Proof.Machine

/-! ## The search of a table -/

@[simp] theorem codeBits_length (n c : Nat) : (codeBits n c).length = n := by
  induction n with
  | zero => rfl
  | succ n ih => simp [codeBits, ih]

/-- Reading one more bit of a code: `code <- (code << 1) | bit` (41_huffman.md R146). -/
theorem div_two_pow_eq_bit (c k : Nat) : c / 2 ^ k = 2 * (c / 2 ^ (k + 1)) + (c.testBit k).toNat := by
  rw [Nat.toNat_testBit, pow_succ, ← Nat.div_div_eq_div_mul, Nat.div_add_mod]

/-- Two entries of which one's code begins with the other's are one entry. -/
theorem prefixFree.eq_of_isPrefixOf {t : HuffTable} {e f : CodeEntry} (h : prefixFree t) (he : e ∈ t) (hf : f ∈ t)
    (hef : e.isPrefixOf f) : e = f := by
  by_contra hne
  have hsymm : Std.Symm fun e f : CodeEntry => ¬ e.isPrefixOf f ∧ ¬ f.isPrefixOf e := ⟨fun _ _ h => h.symm⟩
  exact (List.Pairwise.forall h he hf hne).1 hef

/-- The entry a lookup answers. -/
theorem lookupCode_eq_some {t : HuffTable} {code len sym : Nat} (h : lookupCode t code len = some sym) :
    ∃ e ∈ t, e.code = code ∧ e.len = len ∧ e.sym = sym := by
  obtain ⟨e, he, rfl⟩ := Option.map_eq_some_iff.mp h
  have hp := List.find?_some he
  simp only [Bool.and_eq_true, beq_iff_eq] at hp
  exact ⟨e, List.mem_of_find?_eq_some he, hp.1, hp.2, rfl⟩

theorem lookupCode_eq_none {t : HuffTable} {code len : Nat} :
    lookupCode t code len = none ↔ ∀ e ∈ t, e.code = code → e.len ≠ len := by
  simp [lookupCode]

/-- A search that finds a symbol has read the code of an entry. -/
theorem bits_of_searchCode {t : HuffTable} {fuel code n sym n' : Nat} {bs rest : Bits}
    (h : searchCode t fuel code n bs = .found sym n' rest) :
    ∃ f ∈ t, f.sym = sym ∧ f.len = n' ∧ ∃ k, n' = n + k ∧ f.code / 2 ^ k = code ∧ bs = codeBits k f.code ++ rest := by
  induction fuel generalizing code n bs with
  | zero => cases h
  | succ fuel ih =>
    cases bs with
    | nil => cases h
    | cons b bs =>
      unfold searchCode at h
      split at h
      next hl =>
        cases h
        obtain ⟨f, hf, hcode, hlen, hsym⟩ := lookupCode_eq_some hl
        have hbit : f.code.testBit 0 = b := by rw [hcode]; cases b <;> simp [Nat.testBit_zero]
        refine ⟨f, hf, hsym, hlen, 1, rfl, ?_, by simp [codeBits, hbit]⟩
        rw [hcode]
        have := b.toNat_lt
        omega
      next =>
        obtain ⟨f, hf, hsym, hlen, k, hk, hcode, rfl⟩ := ih h
        have hstep := div_two_pow_eq_bit f.code k
        have hb := b.toNat_lt
        have hb' := (f.code.testBit k).toNat_lt
        have hbit : f.code.testBit k = b := Function.LeftInverse.injective Bool.ofNat_toNat (by omega)
        exact ⟨f, hf, hsym, hlen, k + 1, by omega, by omega, by rw [codeBits, hbit, List.cons_append]⟩

/-- Where no code begins another, the search finds every code: up to its last bit nothing matches. -/
theorem searchCode_codeBits {t : HuffTable} {f : CodeEntry} {fuel n k : Nat} (h : prefixFree t) (hf : f ∈ t)
    (hk : 1 ≤ k) (hfuel : k ≤ fuel) (hlen : f.len = n + k) (rest : Bits) :
    searchCode t fuel (f.code / 2 ^ k) n (codeBits k f.code ++ rest) = .found f.sym f.len rest := by
  induction k generalizing fuel n with
  | zero => omega
  | succ k ih =>
    obtain ⟨fuel, rfl⟩ : ∃ m, fuel = m + 1 := ⟨fuel - 1, by omega⟩
    rw [codeBits, List.cons_append, searchCode, ← div_two_pow_eq_bit]
    have hsame {g : CodeEntry} (hg : g ∈ t) (hcode : g.code = f.code / 2 ^ k) (hglen : g.len = n + 1) : g = f :=
      h.eq_of_isPrefixOf hg hf ⟨by omega, by rw [hcode, show f.len - g.len = k by omega]⟩
    cases hl : lookupCode t (f.code / 2 ^ k) (n + 1) with
    | none =>
      have hk0 : k ≠ 0 := by
        rintro rfl
        exact lookupCode_eq_none.mp hl f hf (by simp) hlen
      exact ih (by omega) (by omega) (by omega)
    | some sym =>
      obtain ⟨g, hg, hcode, hglen, rfl⟩ := lookupCode_eq_some hl
      obtain rfl := hsame hg hcode hglen
      have hk0 : k = 0 := by omega
      subst hk0
      simp [codeBits, hglen]

/-- Decode answers exactly the entry whose code stands at the front. -/
theorem decodeSymbol_eq_found {t : HuffTable} {bs rest : Bits} {sym n : Nat} (hfit : codesFit t) (hpre : prefixFree t) :
    decodeSymbol t bs = .found sym n rest ↔ ∃ f ∈ t, f.sym = sym ∧ f.len = n ∧ bs = codeBits f.len f.code ++ rest := by
  constructor
  · intro h
    obtain ⟨f, hf, hsym, hlen, k, hk, -, hbs⟩ := bits_of_searchCode h
    exact ⟨f, hf, hsym, hlen, by rw [hbs, hlen, hk, Nat.zero_add]⟩
  · rintro ⟨f, hf, rfl, rfl, rfl⟩
    obtain ⟨h1, h15, hcode⟩ := hfit f hf
    have := searchCode_codeBits hpre hf h1 h15 (Nat.zero_add _).symm rest
    rwa [Nat.div_eq_of_lt hcode] at this

/-! ## What Build assigns -/

/-- A table whose codes fit, none beginning another, and one for a symbol: the round trip needs no more of it. -/
structure PrefixCode (t : HuffTable) : Prop where
  fit : codesFit t
  prefixFree : prefixFree t
  oneEach : oneCodeEach t

/-- Build's entries: the code of a symbol of length `e.len ≠ 0` is the next code of that length plus how many smaller
symbols have it too (41_huffman.md R142). -/
theorem mem_assignCodes {next lens : List Nat} {sym : Nat} {e : CodeEntry} (hbound : ∀ l ∈ lens, l < next.length) :
    e ∈ assignCodes next sym lens ↔
      ∃ k, lens[k]? = some e.len ∧ e.len ≠ 0 ∧ e.sym = sym + k ∧
        e.code = next.getD e.len 0 + (lens.take k).count e.len := by
  induction lens generalizing next sym with
  | nil => simp [assignCodes]
  | cons l ls ih =>
    obtain ⟨hl, hls⟩ := List.forall_mem_cons.mp hbound
    rw [← Nat.or_exists_add_one]
    unfold assignCodes
    split
    next h0 =>
      subst h0
      rw [ih hls]
      refine Iff.trans ?_ (or_iff_right fun ⟨h, hne, _⟩ => hne (Option.some.inj h).symm).symm
      refine exists_congr fun k => and_congr_right fun _ => and_congr_right fun hne => ?_
      rw [List.take_succ_cons, List.count_cons_of_ne (Ne.symm hne), Nat.add_right_comm, Nat.add_assoc]
    next h0 =>
      rw [List.mem_cons, ih (by simpa using hls)]
      refine or_congr ?_ (exists_congr fun k => and_congr_right fun _ => and_congr_right fun hne => and_congr ?_ ?_)
      · cases e
        simp only [CodeEntry.mk.injEq, List.getElem?_cons_zero, Option.some.injEq, List.take_zero, List.count_nil]
        constructor
        · rintro ⟨rfl, rfl, rfl⟩
          exact ⟨rfl, h0, rfl, rfl⟩
        · rintro ⟨rfl, -, rfl, rfl⟩
          exact ⟨rfl, rfl, rfl⟩
      · rw [Nat.add_right_comm, Nat.add_assoc]
      · rw [List.take_succ_cons, List.count_cons]
        by_cases hel : l = e.len
        · subst hel
          simp [List.getD_eq_getElem?_getD, hl]
          omega
        · simp [List.getD_eq_getElem?_getD, hel]

theorem le_sym_of_mem_assignCodes {next lens : List Nat} {sym : Nat} {e : CodeEntry}
    (h : e ∈ assignCodes next sym lens) : sym ≤ e.sym := by
  induction lens generalizing next sym with
  | nil => cases h
  | cons l ls ih =>
    unfold assignCodes at h
    split at h
    · exact Nat.le_of_succ_le (ih h)
    · obtain rfl | h := List.mem_cons.mp h
      · exact le_rfl
      · exact Nat.le_of_succ_le (ih h)

/-- Build goes through the symbols in increasing order. -/
theorem assignCodes_sym_lt (next : List Nat) (sym : Nat) (lens : List Nat) :
    (assignCodes next sym lens).Pairwise fun e f => e.sym < f.sym := by
  induction lens generalizing next sym with
  | nil => exact .nil
  | cons l ls ih =>
    unfold assignCodes
    split
    · exact ih _ _
    · exact .cons (fun f hf => le_sym_of_mem_assignCodes hf) (ih _ _)

/-! ## The room codes take -/

/-- The share of the `2^15` sequences that codes of up to `n` bits take (41_huffman.md R141). -/
def kraftSumTo (n : Nat) (lens : List Nat) : Nat := (lens.map fun l => if l = 0 ∨ n < l then 0 else 2 ^ (15 - l)).sum

theorem kraftSumTo_le (n : Nat) (lens : List Nat) : kraftSumTo n lens ≤ kraftSum lens := by
  refine List.sum_le_sum fun l _ => ?_
  by_cases h0 : l = 0
  · simp [h0]
  · rw [if_neg h0]
    split
    · exact Nat.zero_le _
    · exact le_rfl

theorem kraftSumTo_zero (lens : List Nat) : kraftSumTo 0 lens = 0 := by
  refine List.sum_eq_zero fun x hx => ?_
  obtain ⟨l, -, rfl⟩ := List.mem_map.mp hx
  exact if_pos (Nat.eq_zero_or_pos l)

theorem kraftSumTo_succ (n : Nat) (lens : List Nat) :
    kraftSumTo (n + 1) lens = kraftSumTo n lens + blCount lens (n + 1) * 2 ^ (15 - (n + 1)) := by
  unfold kraftSumTo blCount
  rw [if_neg n.succ_ne_zero]
  induction lens with
  | nil => simp
  | cons l ls ih =>
    rw [List.map_cons, List.sum_cons, ih, List.map_cons, List.sum_cons, List.count_cons]
    obtain hl | rfl | hl := Nat.lt_trichotomy l (n + 1)
    · have hiff : (l = 0 ∨ n + 1 < l) ↔ (l = 0 ∨ n < l) := by omega
      simp only [hiff, beq_iff_eq, Nat.ne_of_lt hl, if_false]
      ring
    · simp only [Nat.succ_ne_zero, lt_irrefl, or_self, if_false, Nat.lt_succ_self, or_true, if_true, beq_self_eq_true]
      ring
    · simp only [beq_iff_eq, Nat.ne_of_gt hl, if_false, hl, Nat.lt_of_succ_lt hl, or_true, if_true]
      ring

/-- The recurrence of the first codes (41_huffman.md R142). -/
theorem firstCode_succ (lens : List Nat) {n : Nat} (hn : n ≠ 0) :
    firstCode lens (n + 1) = 2 * (firstCode lens n + blCount lens n) := if_neg hn

/-- The codes up to length `n + 1` end where their share ends. -/
theorem firstCode_add_blCount (lens : List Nat) {n : Nat} (hn : n < 15) :
    (firstCode lens (n + 1) + blCount lens (n + 1)) * 2 ^ (15 - (n + 1)) = kraftSumTo (n + 1) lens := by
  have hfirst : firstCode lens (n + 1) * 2 ^ (15 - (n + 1)) = kraftSumTo n lens := by
    cases n with
    | zero => rw [kraftSumTo_zero, firstCode, if_pos rfl, Nat.zero_mul]
    | succ n =>
      have ih := firstCode_add_blCount lens (n := n) (by omega)
      rw [firstCode_succ lens n.succ_ne_zero, ← ih, show 15 - (n + 1) = 15 - (n + 1 + 1) + 1 by omega, pow_succ]
      ring
  rw [kraftSumTo_succ, ← hfirst]
  ring

/-- The codes of a longer length lie past all the codes of a shorter one. -/
theorem firstCode_mono (lens : List Nat) {l d : Nat} (hl : l ≠ 0) :
    (firstCode lens l + blCount lens l) * 2 ^ (d + 1) ≤ firstCode lens (l + d + 1) := by
  induction d with
  | zero =>
    rw [firstCode_succ lens hl]
    omega
  | succ d ih =>
    rw [firstCode_succ lens (by omega), pow_succ, ← Nat.mul_assoc, Nat.mul_comm _ 2, ← Nat.add_assoc l d 1]
    exact Nat.mul_le_mul_left 2 (Nat.le_add_right_of_le ih)

/-! ## Built tables -/

/-- The table of an accepted length array. -/
theorem build_eq_some {lens : List Nat} {t : HuffTable} (h : build lens = some t) :
    kraftSum lens = 2 ^ 15 ∧ t = assignCodes ((List.range 16).map (firstCode lens)) 0 lens := by
  unfold build at h
  split at h
  · exact ⟨‹_›, (Option.some.inj h).symm⟩
  · cases h

/-- Build's entries: the code of a symbol is the first of its length plus how many smaller symbols have that length
(41_huffman.md R142). -/
theorem mem_of_build {lens : List Nat} {t : HuffTable} {e : CodeEntry} (hlens : ∀ l ∈ lens, l ≤ 15)
    (h : build lens = some t) (he : e ∈ t) :
    lens[e.sym]? = some e.len ∧ 1 ≤ e.len ∧ e.len ≤ 15 ∧
      e.code = firstCode lens e.len + (lens.take e.sym).count e.len := by
  obtain ⟨-, rfl⟩ := build_eq_some h
  have hbound : ∀ l ∈ lens, l < ((List.range 16).map (firstCode lens)).length := fun l hl => by
    rw [List.length_map, List.length_range]
    exact Nat.lt_succ_of_le (hlens l hl)
  obtain ⟨k, hk, hne, hsym, hcode⟩ := (mem_assignCodes hbound).mp he
  obtain rfl : e.sym = k := by omega
  have hle : e.len ≤ 15 := hlens _ (List.mem_of_getElem? hk)
  refine ⟨hk, Nat.one_le_iff_ne_zero.mpr hne, hle, ?_⟩
  rw [hcode, List.getD_eq_getElem?_getD, List.getElem?_map, List.getElem?_range (by omega)]
  rfl

/-- Of two symbols the larger has more symbols of the smaller one's length before it. -/
theorem count_take_lt {lens : List Nat} {k m l : Nat} (h : lens[k]? = some l) (hkm : k < m) :
    (lens.take k).count l < (lens.take m).count l := by
  obtain ⟨hk, rfl⟩ := List.getElem?_eq_some_iff.mp h
  calc (lens.take k).count lens[k]
      < (lens.take (k + 1)).count lens[k] := by
        rw [List.take_succ_eq_append_getElem hk, List.count_append, List.count_singleton_self]
        exact Nat.lt_succ_self _
    _ ≤ (lens.take m).count lens[k] := (List.take_sublist_take_left hkm).count_le _

/-- A code of Build lies among the codes of its length. -/
theorem code_lt_of_build {lens : List Nat} {t : HuffTable} {e : CodeEntry} (hlens : ∀ l ∈ lens, l ≤ 15)
    (h : build lens = some t) (he : e ∈ t) :
    firstCode lens e.len ≤ e.code ∧ e.code < firstCode lens e.len + blCount lens e.len := by
  obtain ⟨hk, h1, -, hcode⟩ := mem_of_build hlens h he
  have := count_take_lt hk (List.getElem?_eq_some_iff.mp hk).1
  rw [List.take_length] at this
  rw [hcode, blCount, if_neg (by omega)]
  omega

theorem codesFit_of_build {lens : List Nat} {t : HuffTable} (hlens : ∀ l ∈ lens, l ≤ 15) (h : build lens = some t) :
    codesFit t := by
  intro e he
  obtain ⟨-, h1, h15, -⟩ := mem_of_build hlens h he
  obtain ⟨n, hn⟩ : ∃ n, e.len = n + 1 := ⟨e.len - 1, by omega⟩
  refine ⟨h1, h15, (code_lt_of_build hlens h he).2.trans_le ?_⟩
  have hroom : (firstCode lens e.len + blCount lens e.len) * 2 ^ (15 - e.len) ≤ 2 ^ e.len * 2 ^ (15 - e.len) := by
    rw [← pow_add, Nat.add_sub_cancel' h15, ← (build_eq_some h).1, hn, firstCode_add_blCount lens (by omega)]
    exact kraftSumTo_le _ _
  exact Nat.le_of_mul_le_mul_right hroom (by positivity)

theorem oneCodeEach_of_build {lens : List Nat} {t : HuffTable} (h : build lens = some t) : oneCodeEach t := by
  obtain ⟨-, rfl⟩ := build_eq_some h
  exact (assignCodes_sym_lt _ _ _).imp Nat.ne_of_lt

/-- A table with one code for a symbol has one entry for it. -/
theorem oneCodeEach.eq_of_sym {t : HuffTable} {e f : CodeEntry} (h : oneCodeEach t) (he : e ∈ t) (hf : f ∈ t)
    (hsym : e.sym = f.sym) : e = f := by
  by_contra hne
  have hsymm : Std.Symm fun e f : CodeEntry => e.sym ≠ f.sym := ⟨fun _ _ h => h.symm⟩
  exact List.Pairwise.forall h he hf hne hsym

/-- A code that begins another of Build is that code: codes of one length differ, and the codes of a longer length lie
past them. -/
theorem sym_eq_of_isPrefixOf {lens : List Nat} {t : HuffTable} {e f : CodeEntry} (hlens : ∀ l ∈ lens, l ≤ 15)
    (h : build lens = some t) (he : e ∈ t) (hf : f ∈ t) (hef : e.isPrefixOf f) : e.sym = f.sym := by
  obtain ⟨hle, hcode⟩ := hef
  obtain ⟨hke, h1, -, hce⟩ := mem_of_build hlens h he
  obtain ⟨hkf, -, -, hcf⟩ := mem_of_build hlens h hf
  obtain heq | hlt := hle.eq_or_lt
  · rw [heq, Nat.sub_self, pow_zero, Nat.div_one] at hcode
    rw [heq] at hke hce
    obtain hlt | hsym | hlt := Nat.lt_trichotomy e.sym f.sym
    · have := count_take_lt hke hlt
      omega
    · exact hsym
    · have := count_take_lt hkf hlt
      omega
  · exfalso
    obtain ⟨d, hd⟩ : ∃ d, f.len = e.len + d + 1 := ⟨f.len - e.len - 1, by omega⟩
    have hmono := firstCode_mono lens (l := e.len) (d := d) (by omega)
    rw [← hd] at hmono
    have hpast := (Nat.le_div_iff_mul_le (by positivity)).mpr (hmono.trans (code_lt_of_build hlens h hf).1)
    rw [show f.len - e.len = d + 1 by omega] at hcode
    have := (code_lt_of_build hlens h he).2
    omega

theorem prefixFree_of_build {lens : List Nat} {t : HuffTable} (hlens : ∀ l ∈ lens, l ≤ 15) (h : build lens = some t) :
    prefixFree t := by
  refine (oneCodeEach_of_build h).imp_of_mem fun {e f} he hf hne => ⟨fun hp => ?_, fun hp => ?_⟩
  · exact hne (sym_eq_of_isPrefixOf hlens h he hf hp)
  · exact hne (sym_eq_of_isPrefixOf hlens h hf he hp).symm

/-- The codes of a built table fit, and none begins another (41_huffman.md R143). -/
theorem prefixCode_of_build {lens : List Nat} {t : HuffTable} (hlens : ∀ l ∈ lens, l ≤ 15)
    (h : build lens = some t) : PrefixCode t :=
  ⟨codesFit_of_build hlens h, prefixFree_of_build hlens h, oneCodeEach_of_build h⟩

/-! ## The fixed tables (41_huffman.md R150, R151) -/

theorem build_fixLitLengths : build fixLitLengths = some fixLit := by decide +kernel

theorem build_fixDistLengths : build (List.replicate 32 5) = some fixDist := by decide +kernel

theorem prefixCode_fixLit : PrefixCode fixLit := by
  refine prefixCode_of_build (fun l hl => ?_) build_fixLitLengths
  simp only [fixLitLengths, List.mem_append, List.mem_replicate] at hl
  omega

theorem prefixCode_fixDist : PrefixCode fixDist := by
  refine prefixCode_of_build (fun l hl => ?_) build_fixDistLengths
  rw [List.eq_of_mem_replicate hl]
  decide

end Sys2Proof.Machine

/-! # Coded elements

A row of a table is a code and its extra bits; the decoder answers, and the encoder writes, exactly those words. -/

namespace Sys2Proof.Machine

/-- `w` is a code of the table `t` and extra bits behind it, and `mk` builds the row `i` from them (30_encoding.md R93,
R94, R96). -/
def CodedWord (t : HuffTable) (ext : Nat → Nat) (mk : Nat → Nat → Nat → Option Instr) (i : Instr) (w : Bits) : Prop :=
  ∃ f ∈ t, ∃ e < 2 ^ ext f.sym, mk f.len f.sym e = some i ∧ w = codeBits f.len f.code ++ fieldBits (ext f.sym) e

theorem readCoded_eq_coded {t : HuffTable} {ext : Nat → Nat} {bs : Bits} {sym n e : Nat} (ht : PrefixCode t) :
    readCoded t ext bs = .coded sym n e ↔
      ∃ f ∈ t, f.sym = sym ∧ f.len = n ∧ e < 2 ^ ext sym ∧
        ∃ rest, bs = codeBits f.len f.code ++ fieldBits (ext sym) e ++ rest := by
  constructor
  · intro h
    unfold readCoded at h
    split at h
    next => cases h
    next => cases h
    next hd =>
      obtain ⟨f, hf, rfl, rfl, rfl⟩ := (decodeSymbol_eq_found ht.fit ht.prefixFree).mp hd
      split at h
      next he =>
        cases h
        obtain ⟨hlt, rfl⟩ := takeBits_eq_some.mp he
        exact ⟨f, hf, rfl, rfl, hlt, _, (List.append_assoc _ _ _).symm⟩
      next => cases h
  · rintro ⟨f, hf, rfl, rfl, hlt, rest, rfl⟩
    have hd : decodeSymbol t (codeBits f.len f.code ++ (fieldBits (ext f.sym) e ++ rest)) = .found f.sym f.len _ :=
      (decodeSymbol_eq_found ht.fit ht.prefixFree).mpr ⟨f, hf, rfl, rfl, rfl⟩
    rw [List.append_assoc, readCoded, hd]
    simp only [takeBits_fieldBits hlt]

/-- The decoder of a coded element answers a row exactly where one of the row's words stands at the front. -/
theorem finishCoded_eq_elem {t : HuffTable} {ext : Nat → Nat} {mk : Nat → Nat → Nat → Option Instr} {bs : Bits}
    {i : Instr} {n : Nat} (ht : PrefixCode t) :
    finishCoded ext mk (readCoded t ext bs) = .elem i n ↔
      ∃ w rest, CodedWord t ext mk i w ∧ bs = w ++ rest ∧ n = w.length := by
  constructor
  · intro h
    unfold finishCoded at h
    split at h
    next => cases h
    next => cases h
    next hc =>
      obtain ⟨f, hf, rfl, rfl, hlt, rest, rfl⟩ := (readCoded_eq_coded ht).mp hc
      split at h
      next hmk =>
        cases h
        exact ⟨_, rest, ⟨f, hf, _, hlt, hmk, rfl⟩, rfl, by simp⟩
      next => cases h
  · rintro ⟨w, rest, ⟨f, hf, e, hlt, hmk, rfl⟩, rfl, rfl⟩
    rw [(readCoded_eq_coded ht).mpr ⟨f, hf, rfl, rfl, hlt, rest, rfl⟩]
    simp [finishCoded, hmk]

/-- The encoder finds the one code of a symbol, whose length must be the one given. -/
theorem encodeCoded_eq_some {t : HuffTable} {len : Option Nat} {sym xb e : Nat} {w : Bits} (ht : oneCodeEach t) :
    encodeCoded t len sym xb e = some w ↔
      ∃ f ∈ t, f.sym = sym ∧ (len = none ∨ len = some f.len) ∧ w = codeBits f.len f.code ++ fieldBits xb e := by
  rw [encodeCoded, Option.map_eq_some_iff]
  constructor
  · rintro ⟨f, hf, rfl⟩
    have hp := List.find?_some hf
    simp only [Bool.and_eq_true, Bool.or_eq_true, beq_iff_eq] at hp
    exact ⟨f, List.mem_of_find?_eq_some hf, hp.1, hp.2, rfl⟩
  · rintro ⟨f, hf, rfl, hlen, rfl⟩
    have hsome : (t.find? fun g => g.sym == f.sym && (len == none || len == some g.len)).isSome := by
      rw [List.find?_isSome]
      exact ⟨f, hf, by simpa using hlen⟩
    obtain ⟨g, hg⟩ := Option.isSome_iff_exists.mp hsome
    have hp := List.find?_some hg
    simp only [Bool.and_eq_true, beq_iff_eq] at hp
    obtain rfl := ht.eq_of_sym (List.mem_of_find?_eq_some hg) hf hp.1
    exact ⟨g, hg, rfl⟩

/-- What the encoder writes for a symbol and extra bits of its width is a word of the row they build. -/
theorem codedWord_of_encodeCoded {t : HuffTable} {ext : Nat → Nat} {mk : Nat → Nat → Nat → Option Instr} {i : Instr}
    {len : Option Nat} {sym e : Nat} {w : Bits} (ht : oneCodeEach t) (henc : encodeCoded t len sym (ext sym) e = some w)
    (he : e < 2 ^ ext sym) (hmk : ∀ n, len = none ∨ len = some n → mk n sym e = some i) : CodedWord t ext mk i w := by
  obtain ⟨f, hf, rfl, hlen, rfl⟩ := (encodeCoded_eq_some ht).mp henc
  exact ⟨f, hf, e, he, hmk f.len hlen, rfl⟩

/-- The same where the code's length is given, as it is for every row that carries it. -/
theorem codedWord_of_encodeCoded_some {t : HuffTable} {ext : Nat → Nat} {mk : Nat → Nat → Nat → Option Instr}
    {i : Instr} {n sym e : Nat} {w : Bits} (ht : oneCodeEach t)
    (henc : encodeCoded t (some n) sym (ext sym) e = some w) (he : e < 2 ^ ext sym) (hmk : mk n sym e = some i) :
    CodedWord t ext mk i w :=
  codedWord_of_encodeCoded ht henc he fun k hk => by
    obtain rfl : n = k := by simpa using hk
    exact hmk

theorem encodeCoded_of_mem {t : HuffTable} {f : CodeEntry} {len : Option Nat} (ht : oneCodeEach t) (hf : f ∈ t)
    (hlen : len = none ∨ len = some f.len) (xb e : Nat) :
    encodeCoded t len f.sym xb e = some (codeBits f.len f.code ++ fieldBits xb e) :=
  (encodeCoded_eq_some ht).mpr ⟨f, hf, rfl, hlen, rfl⟩

/-! ## The dynamic literal/length rows -/

theorem eq_zero_of_lt_lenExtra {sym e : Nat} (h : sym ≤ 256 ∨ 286 ≤ sym) (he : e < 2 ^ lenExtra sym) : e = 0 := by
  rwa [lenExtra_of_not_length h, pow_zero, Nat.lt_one_iff] at he

/-- The row of a dynamic literal/length symbol has that symbol back. -/
theorem dynSym_dynSymInstr {n sym e : Nat} (hn : 1 ≤ n ∧ n ≤ 15) (hsym : sym < 288) (he : e < 2 ^ lenExtra sym) :
    wellFormed (dynSymInstr n sym e) = true ∧ dynSym? (dynSymInstr n sym e) = some (sym, n, e) := by
  unfold dynSymInstr
  split
  next hlit =>
    obtain rfl := eq_zero_of_lt_lenExtra (by omega) he
    simp [wellFormed, codeLenOk, hn, dynSym?, Nat.mod_eq_of_lt hlit]
  split
  next heob =>
    subst heob
    obtain rfl := eq_zero_of_lt_lenExtra (by omega) he
    simp [wellFormed, codeLenOk, hn, dynSym?]
  split
  next hlen => exact ⟨by simp [wellFormed, codeLenOk, hn, hlen, he]; omega, rfl⟩
  next hbad =>
    obtain rfl := eq_zero_of_lt_lenExtra (by omega) he
    exact ⟨by simp [wellFormed, codeLenOk, hn]; omega, rfl⟩

/-- The symbol of a well-formed dynamic literal/length row has that row back. -/
theorem dynSymInstr_of_dynSym {n sym e : Nat} {i : Instr} (hw : wellFormed i = true)
    (hi : dynSym? i = some (sym, n, e)) : dynSymInstr n sym e = i ∧ e < 2 ^ lenExtra sym := by
  cases i with
  | litDyn n b =>
    cases hi
    exact ⟨by simp [dynSymInstr, b.isLt], by positivity⟩
  | eobDyn n =>
    cases hi
    exact ⟨rfl, by positivity⟩
  | matchDyn n sym le =>
    cases hi
    simp only [wellFormed, Bool.and_eq_true, decide_eq_true_eq] at hw
    obtain ⟨⟨⟨-, h257⟩, h285⟩, hle⟩ := hw
    exact ⟨by rw [dynSymInstr, if_neg (by omega), if_neg (by omega), if_pos h285], hle⟩
  | badLitDyn n sym =>
    cases hi
    simp only [wellFormed, Bool.and_eq_true, decide_eq_true_eq] at hw
    obtain ⟨⟨-, h286⟩, -⟩ := hw
    exact ⟨by rw [dynSymInstr, if_neg (by omega), if_neg (by omega), if_neg (by omega)], by positivity⟩
  | _ => cases hi

theorem encode_symDyn (t : HuffTable) (i : Instr) :
    encode (.symDyn t) i = (dynSym? i).bind fun p => encodeCoded t (some p.2.1) p.1 (lenExtra p.1) p.2.2 := rfl

theorem encode_symDyn_iff {t : HuffTable} {i : Instr} {w : Bits} (ht : PrefixCode t) (hsym : ∀ f ∈ t, f.sym < 288) :
    wellFormed i = true ∧ encode (.symDyn t) i = some w ↔
      CodedWord t lenExtra (fun n sym e => some (dynSymInstr n sym e)) i w := by
  rw [encode_symDyn, Option.bind_eq_some_iff]
  constructor
  · rintro ⟨hw, ⟨sym, n, e⟩, hi, henc⟩
    obtain ⟨rfl, he⟩ := dynSymInstr_of_dynSym hw hi
    exact codedWord_of_encodeCoded_some ht.oneEach henc he rfl
  · rintro ⟨f, hf, e, he, hmk, rfl⟩
    obtain ⟨h1, h15, -⟩ := ht.fit f hf
    obtain rfl := Option.some.inj hmk
    obtain ⟨hw, hi⟩ := dynSym_dynSymInstr ⟨h1, h15⟩ (hsym f hf) he
    exact ⟨hw, _, hi, encodeCoded_of_mem ht.oneEach hf (.inr rfl) _ _⟩

/-! ## The dynamic distance rows -/

theorem distExtra_of_bad {sym : Nat} (h : 30 ≤ sym) : distExtra sym = 0 := by
  rw [distExtra, List.getD_eq_getElem?_getD, List.getElem?_eq_none (by simpa [distExtraTable] using h)]
  rfl

theorem encode_distDyn_iff {t : HuffTable} {m : LenPart} {i : Instr} {w : Bits} (ht : PrefixCode t)
    (hsym : ∀ f ∈ t, f.sym < 32) :
    wellFormed i = true ∧ encode (.distDyn t m) i = some w ↔
      m.ok = true ∧ CodedWord t distExtra (fun n sym e => some (dynDistInstr m n sym e)) i w := by
  constructor
  · rintro ⟨hw, henc⟩
    cases i with
    | distDyn m' n sym de =>
      obtain ⟨rfl, hcode⟩ := Option.ite_none_right_eq_some.mp henc
      simp only [wellFormed, Bool.and_eq_true, decide_eq_true_eq] at hw
      obtain ⟨⟨⟨hm, -⟩, h30⟩, hde⟩ := hw
      exact ⟨hm, codedWord_of_encodeCoded_some ht.oneEach hcode hde (by rw [dynDistInstr, if_pos h30])⟩
    | badDistDyn m' n sym =>
      obtain ⟨rfl, hcode⟩ := Option.ite_none_right_eq_some.mp henc
      simp only [wellFormed, Bool.and_eq_true, decide_eq_true_eq] at hw
      obtain ⟨⟨⟨hm, -⟩, h30⟩, -⟩ := hw
      exact ⟨hm, codedWord_of_encodeCoded_some ht.oneEach hcode (by positivity)
        (by rw [dynDistInstr, if_neg (by omega)])⟩
    | _ => cases henc
  · rintro ⟨hm, f, hf, e, he, hmk, rfl⟩
    obtain ⟨h1, h15, -⟩ := ht.fit f hf
    have henc := encodeCoded_of_mem ht.oneEach hf (.inr rfl) (distExtra f.sym) e
    have h32 := hsym f hf
    obtain rfl := Option.some.inj hmk
    unfold dynDistInstr
    split
    next h30 => exact ⟨by simp [wellFormed, codeLenOk, *], by simpa [encode] using henc⟩
    next h30 =>
      rw [distExtra_of_bad (by omega), pow_zero, Nat.lt_one_iff] at he
      subst he
      exact ⟨by simp [wellFormed, codeLenOk, *]; omega, by simpa [encode] using henc⟩

/-! ## The code-length rows -/

theorem clExtra_of_length (p : Bool) {sym : Nat} (h : sym < 16) : clExtra p sym = 0 := by
  rw [clExtra, if_neg (by omega), if_neg (by omega), if_neg (by omega)]

theorem encode_clEntry_iff {t : HuffTable} {p : Bool} {i : Instr} {w : Bits} (ht : PrefixCode t)
    (hbound : ∀ f ∈ t, f.sym < 19 ∧ f.len ≤ 7) :
    wellFormed i = true ∧ encode (.clEntry t p) i = some w ↔ CodedWord t (clExtra p) clInstr i w := by
  constructor
  · rintro ⟨-, henc⟩
    cases i with
    | clLen n v =>
      have hext := clExtra_of_length p v.isLt
      have hcode : encodeCoded t (some n) v.toNat (clExtra p v.toNat) 0 = some w := by rw [hext]; exact henc
      exact codedWord_of_encodeCoded_some ht.oneEach hcode (by positivity) (by simp [clInstr, v.isLt])
    | cl16 n e =>
      obtain ⟨hp, hcode⟩ := Option.ite_none_right_eq_some.mp henc
      refine codedWord_of_encodeCoded_some ht.oneEach hcode ?_ (by simp [clInstr])
      cases p with
      | true => exact e.isLt
      | false =>
        obtain rfl : e = 0 := by simpa using hp
        decide
    | cl17 n e => exact codedWord_of_encodeCoded_some ht.oneEach henc e.isLt (by simp [clInstr])
    | cl18 n e => exact codedWord_of_encodeCoded_some ht.oneEach henc e.isLt (by simp [clInstr])
    | _ => cases henc
  · rintro ⟨f, hf, e, he, hmk, rfl⟩
    obtain ⟨h1, -⟩ := ht.fit f hf
    obtain ⟨h19, h7⟩ := hbound f hf
    have henc := encodeCoded_of_mem ht.oneEach hf (.inr rfl) (clExtra p f.sym) e
    have hlen : clCodeLenOk f.len = true := by simp [clCodeLenOk, h1, h7]
    unfold clInstr at hmk
    split at hmk
    next hlt =>
      cases hmk
      rw [clExtra_of_length p hlt] at he henc ⊢
      obtain rfl := Nat.lt_one_iff.mp he
      exact ⟨hlen, by simpa [encode, Nat.mod_eq_of_lt hlt] using henc⟩
    split at hmk
    next h16 =>
      cases hmk
      rw [h16] at he henc ⊢
      cases p with
      | true =>
        rw [← Nat.mod_eq_of_lt (show e < 2 ^ 2 from he)] at henc ⊢
        exact ⟨hlen, by simpa [encode] using henc⟩
      | false =>
        obtain rfl := Nat.lt_one_iff.mp (show e < 1 from he)
        exact ⟨hlen, henc⟩
    split at hmk
    next h17 =>
      cases hmk
      rw [h17] at he henc ⊢
      rw [← Nat.mod_eq_of_lt (show e < 2 ^ 3 from he)] at henc ⊢
      exact ⟨hlen, by simpa [encode] using henc⟩
    split at hmk
    next h18 =>
      cases hmk
      rw [h18] at he henc ⊢
      rw [← Nat.mod_eq_of_lt (show e < 2 ^ 7 from he)] at henc ⊢
      exact ⟨hlen, by simpa [encode] using henc⟩
    next => cases hmk

/-! ## The fixed literal/length rows -/

/-- The row of a fixed literal has that symbol back (30_encoding.md R98). -/
theorem fixedSym_fixedLitInstr {sym : Nat} (h : sym < 256) : fixedSym? (fixedLitInstr sym) = some (sym, 0) := by
  unfold fixedLitInstr
  split
  · simp [fixedSym?, litPart?, lit8aByte]; omega
  split
  · simp [fixedSym?, litPart?, lit8bByte]; omega
  split
  · simp [fixedSym?, litPart?, lit8cByte]; omega
  split
  · simp [fixedSym?, litPart?, lit9aByte]; omega
  split
  · simp [fixedSym?, litPart?, lit9bByte]; omega
  · simp [fixedSym?, litPart?, lit9cByte]; omega

/-- The row of a fixed length has that symbol and those extra bits back. -/
theorem fixedSym_fixedLenInstr {sym e : Nat} (h : 257 ≤ sym) (h' : sym ≤ 285) (he : e < 2 ^ lenExtra sym) :
    fixedSym? (fixedLenInstr sym e) = some (sym, e) := by
  have hfield : (BitVec.ofNat (lenExtra sym) e).toNat = e := by rw [BitVec.toNat_ofNat, Nat.mod_eq_of_lt he]
  obtain hlt | rfl | ⟨hge, hle⟩ : sym < 265 ∨ sym = 285 ∨ 265 ≤ sym ∧ sym ≤ 284 := by omega
  · obtain rfl : e = 0 := by interval_cases sym <;> exact Nat.lt_one_iff.mp he
    interval_cases sym <;> rfl
  · obtain rfl : e = 0 := Nat.lt_one_iff.mp he
    rfl
  · interval_cases sym <;> exact congrArg (fun x => some (_, x)) hfield

theorem fixedSym_fixedSymInstr {sym e : Nat} (h : sym < 288) (he : e < 2 ^ lenExtra sym) :
    fixedSym? (fixedSymInstr sym e) = some (sym, e) := by
  unfold fixedSymInstr
  split
  next hlit =>
    obtain rfl := eq_zero_of_lt_lenExtra (by omega) he
    exact fixedSym_fixedLitInstr hlit
  split
  next heob =>
    subst heob
    obtain rfl := eq_zero_of_lt_lenExtra (by omega) he
    rfl
  split
  next hlen => exact fixedSym_fixedLenInstr (by omega) hlen he
  next =>
    obtain rfl := eq_zero_of_lt_lenExtra (by omega) he
    obtain rfl | rfl : sym = 286 ∨ sym = 287 := by omega
    · rfl
    · rfl

/-- The symbol of a fixed row has that row back. -/
theorem fixedSymInstr_of_fixedSym {i : Instr} {sym e : Nat} (h : fixedSym? i = some (sym, e)) :
    wellFormed i = true ∧ fixedSymInstr sym e = i ∧ e < 2 ^ lenExtra sym := by
  cases i with
  | lit8a x | lit8b x | lit8c x | lit9a x | lit9b x | lit9c x =>
    cases h
    revert x
    decide
  | eob | len257 | len258 | len259 | len260 | len261 | len262 | len263 | len264 | len285 | badLit286 | badLit287 =>
    simp only [fixedSym?, lenPart?, fixedLenPart, Option.map_some, Option.some.injEq, Prod.mk.injEq] at h
    obtain ⟨rfl, rfl⟩ := h
    exact ⟨rfl, rfl, Nat.two_pow_pos _⟩
  | len265 le | len266 le | len267 le | len268 le | len269 le | len270 le | len271 le | len272 le | len273 le
  | len274 le | len275 le | len276 le | len277 le | len278 le | len279 le | len280 le | len281 le | len282 le
  | len283 le | len284 le =>
    simp only [fixedSym?, lenPart?, fixedLenPart, Option.map_some, Option.some.injEq, Prod.mk.injEq] at h
    obtain ⟨rfl, rfl⟩ := h
    have hle : BitVec.ofNat _ le.toNat = le := by simp
    exact ⟨rfl, congrArg _ hle, le.isLt⟩
  | _ => cases h

theorem encode_symFixed (i : Instr) :
    encode .symFixed i = (fixedSym? i).bind fun p => encodeCoded fixLit none p.1 (lenExtra p.1) p.2 := rfl

theorem encode_symFixed_iff {i : Instr} {w : Bits} :
    wellFormed i = true ∧ encode .symFixed i = some w ↔
      CodedWord fixLit lenExtra (fun _ sym e => some (fixedSymInstr sym e)) i w := by
  have ht := prefixCode_fixLit
  rw [encode_symFixed, Option.bind_eq_some_iff]
  constructor
  · rintro ⟨-, ⟨sym, e⟩, hi, henc⟩
    obtain ⟨-, rfl, he⟩ := fixedSymInstr_of_fixedSym hi
    exact codedWord_of_encodeCoded ht.oneEach henc he fun _ _ => rfl
  · rintro ⟨f, hf, e, he, hmk, rfl⟩
    obtain rfl := Option.some.inj hmk
    have hi := fixedSym_fixedSymInstr (fixLit_len hf).1 he
    exact ⟨(fixedSymInstr_of_fixedSym hi).1, _, hi, encodeCoded_of_mem ht.oneEach hf (.inl rfl) _ _⟩

/-! ## The fixed distance rows -/

theorem wellFormed_fixedDistInstr (m : LenPart) (sym e : Nat) : wellFormed (fixedDistInstr m sym e) = m.ok := by
  unfold fixedDistInstr
  split <;> rfl

theorem fixDist_sym_lt {f : CodeEntry} (h : f ∈ fixDist) : f.sym < 32 := by
  obtain ⟨k, hk, rfl⟩ := List.mem_map.mp h
  exact List.mem_range.mp hk

/-- The row of a fixed distance has its two halves back. -/
theorem distPart_fixedDistInstr {m : LenPart} {sym e : Nat} (h : sym < 32) (he : e < 2 ^ distExtra sym) :
    distPart? (fixedDistInstr m sym e) = some (m, ⟨sym, 5, e⟩) := by
  have hfield : (BitVec.ofNat (distExtra sym) e).toNat = e := by rw [BitVec.toNat_ofNat, Nat.mod_eq_of_lt he]
  obtain hnone | ⟨hge, hle⟩ : (sym < 4 ∨ 30 ≤ sym) ∨ 4 ≤ sym ∧ sym < 30 := by omega
  · obtain rfl : e = 0 := by
      obtain hlt | hge := hnone
      · interval_cases sym <;> exact Nat.lt_one_iff.mp he
      · rwa [distExtra_of_bad hge, pow_zero, Nat.lt_one_iff] at he
    obtain hlt | hge := hnone
    · interval_cases sym <;> rfl
    · interval_cases sym <;> rfl
  · interval_cases sym <;> exact congrArg (fun x => some (m, DistPart.mk _ 5 x)) hfield

/-- The row of a fixed distance is encoded as that symbol and those extra bits (30_encoding.md R99). -/
theorem encode_fixedDistInstr {m : LenPart} {sym e : Nat} (h : sym < 32) (he : e < 2 ^ distExtra sym) :
    encode (.distFixed m) (fixedDistInstr m sym e) = encodeCoded fixDist none sym (distExtra sym) e := by
  have hrow : encode (.distFixed m) (fixedDistInstr m sym e) = (distPart? (fixedDistInstr m sym e)).bind fun q =>
      if q.1 = m then encodeCoded fixDist none q.2.sym (distExtra q.2.sym) q.2.extra else none := by
    unfold fixedDistInstr
    split <;> rfl
  rw [hrow, distPart_fixedDistInstr h he, Option.bind_some, if_pos rfl]

/-- What the encoder writes for a distance half is the code of a symbol that has the row back. -/
theorem fixedDistInstr_of_encode {m : LenPart} {i : Instr} {w : Bits} (hw : wellFormed i = true)
    (h : encode (.distFixed m) i = some w) :
    m.ok = true ∧ ∃ sym e, e < 2 ^ distExtra sym ∧ fixedDistInstr m sym e = i ∧
      encodeCoded fixDist none sym (distExtra sym) e = some w := by
  cases i with
  | dist0 m' | dist1 m' | dist2 m' | dist3 m' | badDist30 m' | badDist31 m' =>
    obtain ⟨rfl, hcode⟩ := Option.ite_none_right_eq_some.mp h
    exact ⟨hw, _, _, Nat.two_pow_pos _, rfl, hcode⟩
  | dist4 m' de | dist5 m' de | dist6 m' de | dist7 m' de | dist8 m' de | dist9 m' de | dist10 m' de | dist11 m' de
  | dist12 m' de | dist13 m' de | dist14 m' de | dist15 m' de | dist16 m' de | dist17 m' de | dist18 m' de
  | dist19 m' de | dist20 m' de | dist21 m' de | dist22 m' de | dist23 m' de | dist24 m' de | dist25 m' de
  | dist26 m' de | dist27 m' de | dist28 m' de | dist29 m' de =>
    obtain ⟨rfl, hcode⟩ := Option.ite_none_right_eq_some.mp h
    exact ⟨hw, _, _, de.isLt, by simp [fixedDistInstr], hcode⟩
  | _ => cases h

theorem encode_distFixed_iff {m : LenPart} {i : Instr} {w : Bits} :
    wellFormed i = true ∧ encode (.distFixed m) i = some w ↔
      m.ok = true ∧ CodedWord fixDist distExtra (fun _ sym e => some (fixedDistInstr m sym e)) i w := by
  have ht := prefixCode_fixDist
  constructor
  · rintro ⟨hw, h⟩
    obtain ⟨hm, sym, e, he, rfl, hcode⟩ := fixedDistInstr_of_encode hw h
    exact ⟨hm, codedWord_of_encodeCoded ht.oneEach hcode he fun _ _ => rfl⟩
  · rintro ⟨hm, f, hf, e, he, hmk, rfl⟩
    obtain rfl := Option.some.inj hmk
    rw [wellFormed_fixedDistInstr, encode_fixedDistInstr (fixDist_sym_lt hf) he]
    exact ⟨hm, encodeCoded_of_mem ht.oneEach hf (.inl rfl) _ _⟩

end Sys2Proof.Machine

/-! # The round trip

Every decoder answers an instruction exactly where the encoder's bits for it stand at the front (30_encoding.md R91). -/

namespace Sys2Proof.Machine

/-! ## Elements of whole bytes and fields -/

theorem decodeZhdr_eq_elem {pad n : Nat} {bs : Bits} {i : Instr} :
    decodeZhdr pad bs = .elem i n ↔
      ∃ c f rest, i = .zhdr c f ∧ n = pad + 16 ∧ bs.drop pad = byteBits c ++ byteBits f ++ rest := by
  constructor
  · intro h
    unfold decodeZhdr at h
    split at h
    next => cases h
    next l rest hl =>
      cases h
      obtain ⟨hlen, hbs⟩ := takeBytes_eq_some.mp hl
      obtain ⟨c, f, rfl⟩ := List.length_eq_two.mp hlen
      exact ⟨c, f, rest, rfl, rfl, by simpa using hbs⟩
  · rintro ⟨c, f, rest, rfl, rfl, hbs⟩
    have hl : takeBytes 2 (bs.drop pad) = some ([c, f], rest) := takeBytes_eq_some.mpr ⟨rfl, by simpa using hbs⟩
    rw [decodeZhdr, hl]
    rfl

theorem decodeStbyte_eq_elem {pad n : Nat} {bs : Bits} {i : Instr} :
    decodeStbyte pad bs = .elem i n ↔
      ∃ b rest, i = .stbyte b ∧ n = pad + 8 ∧ bs.drop pad = byteBits b ++ rest := by
  constructor
  · intro h
    unfold decodeStbyte at h
    split at h
    next => cases h
    next l rest hl =>
      cases h
      obtain ⟨hlen, hbs⟩ := takeBytes_eq_some.mp hl
      obtain ⟨b, rfl⟩ := List.length_eq_one_iff.mp hlen
      exact ⟨b, rest, rfl, rfl, by simpa using hbs⟩
  · rintro ⟨b, rest, rfl, rfl, hbs⟩
    have hl : takeBytes 1 (bs.drop pad) = some ([b], rest) := takeBytes_eq_some.mpr ⟨rfl, by simpa using hbs⟩
    rw [decodeStbyte, hl]
    rfl

/-- A 16-bit value's field is its low byte and its high byte (20_memory.md R72). -/
theorem fieldBits_le16 (lo hi : Byte) : fieldBits 16 (le16 lo hi).toNat = byteBits lo ++ byteBits hi :=
  fieldBits_append hi lo

theorem exists_le16 (x : BitVec 16) : ∃ lo hi, x = le16 lo hi :=
  ⟨x.extractLsb' 0 8, x.extractLsb' 8 8, by
    rw [le16, BitVec.extractLsb'_append_extractLsb'_eq_extractLsb' (show 8 = 0 + 8 from rfl)]
    exact BitVec.extractLsb'_eq_self.symm⟩

theorem decodeSthdr_eq_elem {pad n : Nat} {bs : Bits} {i : Instr} :
    decodeSthdr pad bs = .elem i n ↔
      ∃ len nlen rest, i = .sthdr len nlen ∧ n = pad + 32 ∧
        bs.drop pad = fieldBits 16 len.toNat ++ fieldBits 16 nlen.toNat ++ rest := by
  constructor
  · intro h
    simp only [decodeSthdr] at h
    split at h
    next => cases h
    next a r ha =>
      split at h
      next => cases h
      next b rest hb =>
        cases h
        obtain ⟨hlena, hbs⟩ := takeBytes_eq_some.mp ha
        obtain ⟨hlenb, rfl⟩ := takeBytes_eq_some.mp hb
        obtain ⟨a0, a1, rfl⟩ := List.length_eq_two.mp hlena
        obtain ⟨b0, b1, rfl⟩ := List.length_eq_two.mp hlenb
        refine ⟨le16 a0 a1, le16 b0 b1, rest, rfl, rfl, ?_⟩
        rw [fieldBits_le16, fieldBits_le16]
        simpa using hbs
  · rintro ⟨len, nlen, rest, rfl, rfl, hbs⟩
    obtain ⟨a0, a1, rfl⟩ := exists_le16 len
    obtain ⟨b0, b1, rfl⟩ := exists_le16 nlen
    rw [fieldBits_le16, fieldBits_le16] at hbs
    have ha : takeBytes 2 (bs.drop pad) = some ([a0, a1], byteBits b0 ++ byteBits b1 ++ rest) :=
      takeBytes_eq_some.mpr ⟨rfl, by simpa using hbs⟩
    have hb : takeBytes 2 (byteBits b0 ++ byteBits b1 ++ rest) = some ([b0, b1], rest) :=
      takeBytes_eq_some.mpr ⟨rfl, by simp⟩
    simp only [decodeSthdr, ha, hb]
    rfl

/-- The bits of a 32-bit big-endian value, most significant byte first (20_memory.md R72, 42_zlib_envelope.md R178). -/
abbrev be32Bits (a : BitVec 32) : Bits :=
  byteBits (a.extractLsb' 24 8) ++ byteBits (a.extractLsb' 16 8) ++ byteBits (a.extractLsb' 8 8) ++
    byteBits (a.extractLsb' 0 8)

theorem be32Bits_be32 (b0 b1 b2 b3 : Byte) :
    be32Bits (be32 b0 b1 b2 b3) = byteBits b0 ++ byteBits b1 ++ byteBits b2 ++ byteBits b3 := by
  have h0 : (be32 b0 b1 b2 b3).extractLsb' 24 8 = b0 := by
    rw [be32, BitVec.extractLsb'_append_eq_of_le (by decide), BitVec.extractLsb'_append_eq_of_le (by decide)]
    exact BitVec.extractLsb'_append_eq_left
  have h1 : (be32 b0 b1 b2 b3).extractLsb' 16 8 = b1 := by
    rw [be32, BitVec.extractLsb'_append_eq_of_le (by decide), BitVec.extractLsb'_append_eq_of_le (by decide)]
    exact BitVec.extractLsb'_append_eq_right
  have h2 : (be32 b0 b1 b2 b3).extractLsb' 8 8 = b2 := by
    rw [be32, BitVec.extractLsb'_append_eq_of_le (by decide)]
    exact BitVec.extractLsb'_append_eq_right
  have h3 : (be32 b0 b1 b2 b3).extractLsb' 0 8 = b3 := BitVec.extractLsb'_append_eq_right
  rw [be32Bits, h0, h1, h2, h3]

theorem exists_be32 (a : BitVec 32) : ∃ b0 b1 b2 b3, a = be32 b0 b1 b2 b3 :=
  ⟨a.extractLsb' 24 8, a.extractLsb' 16 8, a.extractLsb' 8 8, a.extractLsb' 0 8, by
    rw [be32, BitVec.extractLsb'_append_extractLsb'_eq_extractLsb' (show 24 = 16 + 8 from rfl),
      BitVec.extractLsb'_append_extractLsb'_eq_extractLsb' (show 16 = 8 + 8 from rfl),
      BitVec.extractLsb'_append_extractLsb'_eq_extractLsb' (show 8 = 0 + 8 from rfl)]
    exact BitVec.extractLsb'_eq_self.symm⟩

theorem decodeZtrl_eq_elem {pad n : Nat} {bs : Bits} {i : Instr} :
    decodeZtrl pad bs = .elem i n ↔
      ∃ a rest, i = .ztrl a ∧ n = pad + 32 ∧ bs.drop pad = be32Bits a ++ rest := by
  constructor
  · intro h
    unfold decodeZtrl at h
    split at h
    next => cases h
    next l rest hl =>
      cases h
      obtain ⟨hlen, hbs⟩ := takeBytes_eq_some.mp hl
      match l, hlen with
      | [b0, b1, b2, b3], _ =>
        refine ⟨be32 b0 b1 b2 b3, rest, rfl, rfl, ?_⟩
        rw [be32Bits_be32]
        simpa using hbs
  · rintro ⟨a, rest, rfl, rfl, hbs⟩
    obtain ⟨b0, b1, b2, b3, rfl⟩ := exists_be32 a
    rw [be32Bits_be32] at hbs
    have hl : takeBytes 4 (bs.drop pad) = some ([b0, b1, b2, b3], rest) :=
      takeBytes_eq_some.mpr ⟨rfl, by simpa using hbs⟩
    rw [decodeZtrl, hl]
    rfl

theorem decodeBhdr_eq_elem {n : Nat} {bs : Bits} {i : Instr} :
    decodeBhdr bs = .elem i n ↔
      ∃ f btype rest, btype < 4 ∧ i = bhdrInstr f btype ∧ n = 3 ∧ bs = f :: fieldBits 2 btype ++ rest := by
  constructor
  · intro h
    unfold decodeBhdr at h
    split at h
    next => cases h
    next v r hv =>
      split at h
      next => cases h
      next t rest ht =>
        cases h
        obtain ⟨hlt, rfl⟩ := takeBits_eq_some.mp hv
        obtain ⟨hlt', rfl⟩ := takeBits_eq_some.mp ht
        refine ⟨v == 1, t, rest, hlt', rfl, rfl, ?_⟩
        interval_cases v <;> rfl
  · rintro ⟨f, t, rest, hlt, rfl, rfl, rfl⟩
    have hf : takeBits 1 (f :: fieldBits 2 t ++ rest) = some (f.toNat, fieldBits 2 t ++ rest) := by
      cases f <;> rfl
    have ht : takeBits 2 (fieldBits 2 t ++ rest) = some (t, rest) := takeBits_fieldBits hlt rest
    simp only [decodeBhdr, hf, ht]
    cases f <;> rfl

theorem decodeDynhdr_eq_elem {n : Nat} {bs : Bits} {i : Instr} :
    decodeDynhdr bs = .elem i n ↔
      ∃ h d c cl rest, cl.length = hclenOf c ∧ i = .dynhdr h d c cl ∧ n = 14 + 3 * cl.length ∧
        bs = fieldBits 5 h.toNat ++ fieldBits 5 d.toNat ++ fieldBits 4 c.toNat ++ lensBits cl ++ rest := by
  constructor
  · intro hx
    unfold decodeDynhdr at hx
    split at hx
    next => cases hx
    next h r1 h1 =>
      split at hx
      next => cases hx
      next d r2 h2 =>
        split at hx
        next => cases hx
        next c r3 h3 =>
          simp only at hx
          split at hx
          next hlen =>
            cases hx
            obtain ⟨hh, rfl⟩ := takeBits_eq_some.mp h1
            obtain ⟨hd, rfl⟩ := takeBits_eq_some.mp h2
            obtain ⟨hc, rfl⟩ := takeBits_eq_some.mp h3
            obtain ⟨rest, hrest⟩ := eq_lensBits_of_takeLens hlen
            refine ⟨_, _, _, _, rest, ?_, rfl, rfl, ?_⟩
            · rw [hlen, hclenOf, BitVec.toNat_ofNat, Nat.mod_eq_of_lt hc]
            · rw [fieldBits_ofNat hh, fieldBits_ofNat hd, fieldBits_ofNat hc]
              simp only [List.append_assoc]
              rw [← hrest]
          next => cases hx
  · rintro ⟨h, d, c, cl, rest, hlen, rfl, rfl, rfl⟩
    rw [hclenOf] at hlen
    have hcl : takeLens (c.toNat + 4) (lensBits cl ++ rest) = cl := by rw [← hlen, takeLens_lensBits]
    simp only [decodeDynhdr, List.append_assoc, takeBits_word, hcl]
    rw [if_pos hlen]
    simp

/-! ## The tables of a context -/

theorem sym_lt_of_build {lens : List Nat} {t : HuffTable} {f : CodeEntry} (hlens : ∀ l ∈ lens, l ≤ 15)
    (h : build lens = some t) (hf : f ∈ t) : f.sym < lens.length :=
  (List.getElem?_eq_some_iff.mp (mem_of_build hlens h hf).1).1

theorem le_of_mem_map_toNat {n k : Nat} {l : List (BitVec n)} (hk : 2 ^ n ≤ k + 1) :
    ∀ x ∈ l.map BitVec.toNat, x ≤ k := by
  intro x hx
  obtain ⟨v, -, rfl⟩ := List.mem_map.mp hx
  have := v.isLt
  omega

/-- A table built for an alphabet of `k` symbols has codes for those alone. -/
theorem prefixCode_of_lengths {l : List (BitVec 4)} {t : HuffTable} {k : Nat} (hk : l.length ≤ k)
    (h : build (l.map BitVec.toNat) = some t) : PrefixCode t ∧ ∀ f ∈ t, f.sym < k := by
  have hlens := le_of_mem_map_toNat (l := l) (k := 15) (by decide)
  refine ⟨prefixCode_of_build hlens h, fun f hf => ?_⟩
  have := sym_lt_of_build hlens h hf
  rw [List.length_map] at this
  omega

theorem prefixCode_of_clLengths {cl : List (BitVec 3)} {t : HuffTable} (hlen : cl.length = 19)
    (h : build (cl.map BitVec.toNat) = some t) : PrefixCode t ∧ ∀ f ∈ t, f.sym < 19 ∧ f.len ≤ 7 := by
  have hlens := le_of_mem_map_toNat (l := cl) (k := 7) (by decide)
  have hlens' : ∀ x ∈ cl.map BitVec.toNat, x ≤ 15 := fun x hx => (hlens x hx).trans (by decide)
  refine ⟨prefixCode_of_build hlens' h, fun f hf => ⟨?_, ?_⟩⟩
  · simpa [hlen] using sym_lt_of_build hlens' h hf
  · exact hlens _ (List.mem_of_getElem? (mem_of_build hlens' h hf).1)

/-! ## Decode and encode -/

@[simp] theorem padBits_length (n : Nat) : (padBits n).length = n := List.length_replicate

@[simp] theorem drop_padBits_append (n : Nat) (bs : Bits) : (padBits n ++ bs).drop n = bs :=
  List.drop_left' (padBits_length n)

/-- The first `n` of the bits are the encoding of the well-formed instruction `i`. -/
def StandsAt (ctx : Ctx) (i : Instr) (n : Nat) (bs : Bits) : Prop :=
  ∃ w rest, (wellFormed i = true ∧ encode ctx i = some w) ∧ bs = w ++ rest ∧ n = w.length

theorem StandsAt.encode_take {ctx : Ctx} {i : Instr} {n : Nat} {bs : Bits} (h : StandsAt ctx i n bs) :
    wellFormed i = true ∧ encode ctx i = some (bs.take n) ∧ n ≤ bs.length := by
  obtain ⟨w, rest, ⟨hw, henc⟩, rfl, rfl⟩ := h
  exact ⟨hw, by rw [List.take_left, henc], by simp⟩

theorem decode_clEntry_iff {t : HuffTable} {p : Bool} {bs : Bits} {i : Instr} {n : Nat}
    (htab : tablesBuilt (.clEntry t p)) : decode (.clEntry t p) bs = .elem i n ↔ StandsAt (.clEntry t p) i n bs := by
  obtain ⟨cl, hlen, hbuild⟩ := htab
  obtain ⟨ht, hbound⟩ := prefixCode_of_clLengths hlen hbuild
  simp only [decode, finishCoded_eq_elem ht, ← encode_clEntry_iff ht hbound, StandsAt]

theorem decode_symDyn_iff {t : HuffTable} {bs : Bits} {i : Instr} {n : Nat} (htab : tablesBuilt (.symDyn t)) :
    decode (.symDyn t) bs = .elem i n ↔ StandsAt (.symDyn t) i n bs := by
  obtain ⟨l, hlen, hbuild⟩ := htab
  obtain ⟨ht, hsym⟩ := prefixCode_of_lengths hlen hbuild
  simp only [decode, finishCoded_eq_elem ht, ← encode_symDyn_iff ht hsym, StandsAt]

theorem decode_symFixed_iff {bs : Bits} {i : Instr} {n : Nat} :
    decode .symFixed bs = .elem i n ↔ StandsAt .symFixed i n bs := by
  simp only [decode, finishCoded_eq_elem prefixCode_fixLit, ← encode_symFixed_iff, StandsAt]

theorem decode_distDyn_iff {t : HuffTable} {m : LenPart} {bs : Bits} {i : Instr} {n : Nat}
    (htab : tablesBuilt (.distDyn t m)) :
    m.ok = true ∧ decode (.distDyn t m) bs = .elem i n ↔ StandsAt (.distDyn t m) i n bs := by
  obtain ⟨l, hlen, hbuild⟩ := htab
  obtain ⟨ht, hsym⟩ := prefixCode_of_lengths hlen hbuild
  simp only [decode, finishCoded_eq_elem ht, encode_distDyn_iff ht hsym, StandsAt, and_assoc, exists_and_left]

theorem decode_distFixed_iff {m : LenPart} {bs : Bits} {i : Instr} {n : Nat} :
    m.ok = true ∧ decode (.distFixed m) bs = .elem i n ↔ StandsAt (.distFixed m) i n bs := by
  simp only [decode, finishCoded_eq_elem prefixCode_fixDist, encode_distFixed_iff, StandsAt, and_assoc, exists_and_left]

theorem bhdrInstr_encode {f : Bool} {btype : Nat} (h : btype < 4) :
    wellFormed (bhdrInstr f btype) = true ∧ encode .bhdr (bhdrInstr f btype) = some (f :: fieldBits 2 btype) := by
  interval_cases btype <;> exact ⟨rfl, rfl⟩

theorem dynhdrBits_length (h d : BitVec 5) (c : BitVec 4) (cl : List (BitVec 3)) :
    (fieldBits 5 h.toNat ++ fieldBits 5 d.toNat ++ fieldBits 4 c.toNat ++ lensBits cl).length = 14 + 3 * cl.length := by
  simp only [List.length_append, fieldBits_length, lensBits_length]

/-- Settles O48: each decoder answers the instruction whose encoding stands at the front. -/
theorem decodeOfEncode : Obligations.DecodeOfEncode := by
  intro ctx i w rest htab hw henc
  have hstands : StandsAt ctx i w.length (w ++ rest) := ⟨w, rest, ⟨hw, henc⟩, rfl, rfl⟩
  cases ctx with
  | zhdr pad =>
    cases i with
    | zhdr c f =>
      cases henc
      exact decodeZhdr_eq_elem.mpr ⟨c, f, rest, rfl, by simp, by simp⟩
    | _ => cases henc
  | bhdr =>
    cases i with
    | bhdrStored f | bhdrFixed f | bhdrDynamic f | bhdrReserved f =>
      cases henc
      exact decodeBhdr_eq_elem.mpr ⟨f, _, rest, by decide, rfl, rfl, rfl⟩
    | _ => cases henc
  | sthdr pad =>
    cases i with
    | sthdr len nlen =>
      cases henc
      exact decodeSthdr_eq_elem.mpr ⟨len, nlen, rest, rfl, by simp, by simp⟩
    | _ => cases henc
  | stbyte pad =>
    cases i with
    | stbyte b =>
      cases henc
      exact decodeStbyte_eq_elem.mpr ⟨b, rest, rfl, by simp, by simp⟩
    | _ => cases henc
  | dynhdr =>
    cases i with
    | dynhdr h d c cl =>
      cases henc
      exact decodeDynhdr_eq_elem.mpr ⟨h, d, c, cl, rest, of_decide_eq_true hw, rfl, dynhdrBits_length h d c cl, rfl⟩
    | _ => cases henc
  | ztrl pad =>
    cases i with
    | ztrl a =>
      cases henc
      exact decodeZtrl_eq_elem.mpr ⟨a, rest, rfl, by simp, by simp⟩
    | _ => cases henc
  | clEntry t p => exact (decode_clEntry_iff htab).mpr hstands
  | symFixed => exact decode_symFixed_iff.mpr hstands
  | symDyn t => exact (decode_symDyn_iff htab).mpr hstands
  | distFixed m => exact (decode_distFixed_iff.mpr hstands).2
  | distDyn t m => exact ((decode_distDyn_iff htab).mpr hstands).2

/-- Settles O49: what a decoder answers stands at the front, and those bits are its encoding. -/
theorem encodeOfDecode : Obligations.EncodeOfDecode := by
  intro ctx i bs n htab hcur h
  refine StandsAt.encode_take ?_
  cases ctx with
  | zhdr pad =>
    obtain rfl : pad = 0 := hcur
    obtain ⟨c, f, rest, rfl, rfl, hbs⟩ := decodeZhdr_eq_elem.mp h
    exact ⟨_, rest, ⟨rfl, rfl⟩, hbs, by simp⟩
  | bhdr =>
    obtain ⟨f, btype, rest, hlt, rfl, rfl, hbs⟩ := decodeBhdr_eq_elem.mp h
    exact ⟨_, rest, bhdrInstr_encode hlt, hbs, rfl⟩
  | sthdr pad =>
    obtain rfl : pad = 0 := hcur
    obtain ⟨len, nlen, rest, rfl, rfl, hbs⟩ := decodeSthdr_eq_elem.mp h
    exact ⟨_, rest, ⟨rfl, rfl⟩, hbs, by simp⟩
  | stbyte pad =>
    obtain rfl : pad = 0 := hcur
    obtain ⟨b, rest, rfl, rfl, hbs⟩ := decodeStbyte_eq_elem.mp h
    exact ⟨_, rest, ⟨rfl, rfl⟩, hbs, by simp⟩
  | dynhdr =>
    obtain ⟨hl, hd, c, cl, rest, hlen, rfl, rfl, hbs⟩ := decodeDynhdr_eq_elem.mp h
    exact ⟨_, rest, ⟨decide_eq_true hlen, rfl⟩, hbs, (dynhdrBits_length hl hd c cl).symm⟩
  | ztrl pad =>
    obtain rfl : pad = 0 := hcur
    obtain ⟨a, rest, rfl, rfl, hbs⟩ := decodeZtrl_eq_elem.mp h
    exact ⟨_, rest, ⟨rfl, rfl⟩, hbs, by simp⟩
  | clEntry t p => exact (decode_clEntry_iff htab).mp h
  | symFixed => exact decode_symFixed_iff.mp h
  | symDyn t => exact (decode_symDyn_iff htab).mp h
  | distFixed m => exact decode_distFixed_iff.mp ⟨hcur, h⟩
  | distDyn t m => exact (decode_distDyn_iff htab).mp ⟨hcur, h⟩

/-- Settles O47: the decoder evaluated on each word. -/
theorem writtenWordsDecode : Obligations.WrittenWordsDecode := by
  unfold Obligations.WrittenWordsDecode
  decide +kernel

end Sys2Proof.Machine

/-! # The size of an element -/

namespace Sys2Proof.Machine

/-- The bits row `i` takes from the cursor of `s`: its size and, for the rows of whole bytes, the pad. A CL_16 with no
previous length takes its code alone (30_encoding.md R92, 43_blocks.md R203, log 9). -/
def rowBits (s : State) : Instr → Nat
  | .cl16 n _ => n + clExtra (s.lcnt != 0) 16
  | i => elementBits i + if isByteAligned i then padLen s else 0

theorem rowBits_of_full {s : State} {i : Instr} (h : ¬ ∃ k e, i = .cl16 k e ∧ s.lcnt = 0) :
    rowBits s i = (if isByteAligned i then padLen s else 0) + elementBits i := by
  cases i with
  | cl16 n e =>
    have hprev : (s.lcnt != 0) = true := bne_iff_ne.mpr fun h0 => h ⟨n, e, rfl, h0⟩
    rw [rowBits, hprev]
    exact (Nat.zero_add _).symm
  | _ => exact Nat.add_comm _ _

/-! ## What a row moves the cursor by -/

theorem cursor_raise (e : ErrorCode) (n : Nat) (s : State) : bitOffset (raise e (advance n s)) = bitOffset s + n := by
  rw [bitOffset_raise, bitOffset_advance]

theorem cursor_clOutcome {n : Nat} {s t : State} (h : ClOutcome n s t) : bitOffset t = bitOffset s + n := by
  obtain rfl | ⟨-, sym, extra, r, v, -, -, -, rfl⟩ := h
  · exact cursor_raise _ n s
  · rw [bitOffset_lensNext]
    exact bitOffset_advance n s

theorem cursor_copyElement {m : LenPart} {p : DistPart} {s t : State} (h : copyElement m p s = .next t) :
    bitOffset t = bitOffset s + (p.codeBits + distExtra p.sym) := by
  obtain ⟨e, -, rfl⟩ | ⟨len, dist, bs, lsym, lextra, dsym, dextra, -, -, rfl⟩ := copyElement_next h
  · exact cursor_raise e _ s
  · exact bitOffset_advance _ s

theorem cursor_badDistanceElement {n : Nat} {s t : State} (h : badDistanceElement n s = .next t) :
    bitOffset t = bitOffset s + n := by
  cases h
  exact cursor_raise _ n s

theorem cursor_literalElement {n : Nat} {b : Byte} {s t : State} (h : literalElement n b s = .next t) :
    bitOffset t = bitOffset s + n := by
  obtain ⟨-, -, rfl⟩ := literalElement_next h
  exact bitOffset_advance n s

theorem cursor_endOfBlockElement {n : Nat} {s t : State} (h : endOfBlockElement n s = .next t) :
    bitOffset t = bitOffset s + n := by
  obtain ⟨-, rfl⟩ := endOfBlockElement_next h
  exact bitOffset_advance n s

theorem cursor_badSymbolElement {n : Nat} {s t : State} (h : badSymbolElement n s = .next t) :
    bitOffset t = bitOffset s + n := by
  cases h
  exact cursor_raise _ n s

/-- Every row but the length rows, which read their distance half too, moves the cursor past its own bits. -/
theorem cursor_exec {i : Instr} {s t : State} (hlen : lenPart? i = none) (h : exec i s = .next t) :
    bitOffset t = bitOffset s + rowBits s i := by
  have hskip (k : Nat) : bitOffset (skipBytes k s) = bitOffset s + (8 * k + padLen s) := by
    rw [bitOffset_skipBytes]; omega
  cases i with
  | zhdr c f =>
    obtain ⟨-, rfl⟩ := execZhdr_next h
    exact hskip 2
  | bhdrStored f =>
    obtain ⟨-, rfl⟩ := execBhdrStored_next h
    exact bitOffset_advance 3 s
  | bhdrFixed f =>
    obtain ⟨-, rfl⟩ := execBhdrFixed_next h
    exact bitOffset_advance 3 s
  | bhdrDynamic f =>
    obtain ⟨-, rfl⟩ := execBhdrDynamic_next h
    exact bitOffset_advance 3 s
  | bhdrReserved f =>
    cases h
    rw [bitOffset_raise]
    exact bitOffset_advance 3 s
  | sthdr len nlen =>
    obtain rfl | rfl := execSthdr_next h
    · exact hskip 4
    · rw [bitOffset_raise]
      exact hskip 4
  | stbyte b =>
    obtain ⟨-, -, rfl⟩ := execStbyte_next h
    exact hskip 1
  | dynhdr hl hd c cl =>
    obtain ⟨-, rfl | ⟨tab, -, rfl⟩⟩ := execDynhdr_next h
    · rw [bitOffset_raise]
      exact bitOffset_advance _ s
    · exact bitOffset_advance _ s
  | clLen n v => exact cursor_clOutcome (execClLen_next h)
  | cl16 n e => exact cursor_clOutcome (execCl16_next h)
  | cl17 n e => exact cursor_clOutcome (execCl17_next h)
  | cl18 n e => exact cursor_clOutcome (execCl18_next h)
  | lit8a | lit8b | lit8c | lit9a | lit9b | lit9c | litDyn => exact cursor_literalElement h
  | eob | eobDyn => exact cursor_endOfBlockElement h
  | badLit286 | badLit287 | badLitDyn => exact cursor_badSymbolElement h
  | dist0 | dist1 | dist2 | dist3 | dist4 | dist5 | dist6 | dist7 | dist8 | dist9 | dist10 | dist11 | dist12 | dist13
  | dist14 | dist15 | dist16 | dist17 | dist18 | dist19 | dist20 | dist21 | dist22 | dist23 | dist24 | dist25 | dist26
  | dist27 | dist28 | dist29 | distDyn =>
    have hcopy : copyElement _ _ s = .next t := h
    exact cursor_copyElement hcopy
  | badDist30 | badDist31 | badDistDyn => exact cursor_badDistanceElement h
  | ztrl a =>
    obtain ⟨-, rfl⟩ := execZtrl_next h
    exact hskip 4
  | _ => cases hlen

/-! ## What a row was decoded from -/

theorem rowBits_of_litPart {i : Instr} {n : Nat} {b : Byte} (s : State) (h : litPart? i = some (n, b)) :
    rowBits s i = n := by
  cases i <;> cases h <;> rfl

theorem rowBits_matchDyn (s : State) (n sym le : Nat) : rowBits s (.matchDyn n sym le) = n + lenExtra sym :=
  Nat.add_zero _

theorem rowBits_of_lenPart {i : Instr} {m : LenPart} (s : State) (h : lenPart? i = some m) : rowBits s i = m.bits := by
  cases i with
  | matchDyn n sym le =>
    cases h
    exact rowBits_matchDyn s n sym le
  | _ => cases h <;> rfl

theorem rowBits_fixedSymInstr {sym : Nat} (s : State) (e : Nat) (h : sym < 288) :
    rowBits s (fixedSymInstr sym e) = fixedCodeBits sym + lenExtra sym := by
  unfold fixedSymInstr
  split
  next hlit =>
    obtain ⟨b, hb⟩ := litPart_fixedLitInstr hlit
    rw [rowBits_of_litPart s hb, lenExtra_of_not_length (by omega), Nat.add_zero]
  split
  next heob =>
    subst heob
    rfl
  split
  next hlen =>
    obtain ⟨m, hm, hbits⟩ := lenPart_fixedLenInstr (sym := sym) e (by omega) hlen
    rw [rowBits_of_lenPart s hm, hbits]
  next =>
    obtain rfl | rfl : sym = 286 ∨ sym = 287 := by omega
    · rfl
    · rfl

theorem rowBits_dynSymInstr (s : State) (n sym e : Nat) : rowBits s (dynSymInstr n sym e) = n + lenExtra sym := by
  unfold dynSymInstr
  split
  next =>
    rw [lenExtra_of_not_length (by omega)]
    rfl
  split
  next heob =>
    subst heob
    rfl
  split
  next => exact rowBits_matchDyn s n sym e
  next =>
    rw [lenExtra_of_not_length (by omega)]
    rfl

theorem rowBits_clInstr {s : State} {n sym e : Nat} {i : Instr} (h : clInstr n sym e = some i) :
    rowBits s i = n + clExtra (s.lcnt != 0) sym := by
  unfold clInstr at h
  split at h
  next hlt =>
    cases h
    rw [clExtra_of_length _ hlt]
    rfl
  split at h
  next h16 =>
    cases h
    rw [h16]
    rfl
  split at h
  next h17 =>
    cases h
    rw [h17]
    rfl
  split at h
  next h18 =>
    cases h
    rw [h18]
    rfl
  next => cases h

/-- An element is decoded from its row's bits. -/
theorem decode_rowBits {s : State} {ctx : Ctx} {i : Instr} {n : Nat} (hctx : contextOf s = some ctx)
    (hd : decode ctx (stream s) = .elem i n) : n = rowBits s i := by
  unfold contextOf at hctx
  split at hctx
  · cases hctx
  · cases hctx
  · cases hctx
  · cases hctx
  · cases hctx
  · cases hctx
    obtain ⟨c, f, rest, rfl, rfl, -⟩ := decodeZhdr_eq_elem.mp hd
    exact Nat.add_comm _ _
  · cases hctx
    obtain ⟨f, btype, rest, hlt, rfl, rfl, -⟩ := decodeBhdr_eq_elem.mp hd
    interval_cases btype <;> rfl
  · cases hctx
    obtain ⟨len, nlen, rest, rfl, rfl, -⟩ := decodeSthdr_eq_elem.mp hd
    exact Nat.add_comm _ _
  · cases hctx
    obtain ⟨b, rest, rfl, rfl, -⟩ := decodeStbyte_eq_elem.mp hd
    exact Nat.add_comm _ _
  · cases hctx
    obtain ⟨h, d, c, cl, rest, -, rfl, rfl, -⟩ := decodeDynhdr_eq_elem.mp hd
    rfl
  · cases hctx
    obtain ⟨sym, k, e, -, hi, rfl, -, -⟩ := finishCoded_elem hd
    exact (rowBits_clInstr hi).symm
  · split at hctx
    · cases hctx
      simp only [decode] at hd
      obtain ⟨sym, k, e, ⟨f, hf, rfl, rfl⟩, hi, hn, -, -⟩ := finishCoded_elem hd
      cases hi
      obtain ⟨hlt, hk⟩ := fixLit_len hf
      rw [hn, rowBits_fixedSymInstr s e hlt, hk]
    · cases hctx
      simp only [decode] at hd
      obtain ⟨sym, k, e, -, hi, hn, -, -⟩ := finishCoded_elem hd
      cases hi
      exact hn.trans (rowBits_dynSymInstr s k sym e).symm
  · cases hctx
    obtain ⟨a, rest, rfl, rfl, -⟩ := decodeZtrl_eq_elem.mp hd
    exact Nat.add_comm _ _

/-- Settles O15: an element is decoded from its row's bits, and its row moves the cursor by them. -/
theorem elementAdvancesByItsSize : Obligations.ElementAdvancesByItsSize := by
  intro s t ctx i n hctx hd hlen hx
  have hn := decode_rowBits hctx hd
  have hcur := cursor_exec hlen hx
  obtain ⟨⟨k, hk, hcur'⟩, -⟩ := (elem_move hctx hd hx).cursor
  refine ⟨by rw [hcur, hn], by omega, fun k e hi h0 => ?_, fun hfull => hn.trans (rowBits_of_full hfull)⟩
  subst hi
  rw [hn, rowBits, h0]
  rfl

end Sys2Proof.Machine

/-! # The reads at the cursor

ReadBits and ReadBytes by the bits of the stream they answer (40_bitreader.md R121 to R125). -/

namespace Sys2Proof.Machine

/-! ## The bits of a field -/

theorem fieldBits_getElem (n v i : Nat) (h : i < (fieldBits n v).length) : (fieldBits n v)[i] = v.testBit i := by
  induction n generalizing v i with
  | zero => cases h
  | succ n ih =>
    cases i with
    | zero => exact (Nat.testBit_zero v).symm
    | succ i => simp only [fieldBits, List.getElem_cons_succ, ih, Nat.testBit_succ]

/-- Bit `i` of a value is bit `i` of what its field begins. -/
theorem getD_fieldBits_append {n i : Nat} (x : BitVec n) (rest : Bits) (h : i < n) :
    (fieldBits n x.toNat ++ rest).getD i false = x.getLsbD i := by
  have hi : i < (fieldBits n x.toNat).length := by rwa [fieldBits_length]
  rw [List.getD_append _ _ _ _ hi, List.getD_eq_getElem _ _ hi, fieldBits_getElem]
  rfl

theorem getD_drop (bs : Bits) (k i : Nat) : (bs.drop k).getD i false = bs.getD (k + i) false := by
  simp only [List.getD_eq_getElem?_getD, List.getElem?_drop]

/-! ## ReadBits -/

theorem takeBits_eq_none {n : Nat} {bs : Bits} : takeBits n bs = none ↔ bs.length < n := by
  rw [← Nat.not_le, ← takeBits_isSome, Option.not_isSome_iff_eq_none]

/-- `ReadBits(n)` answers the value whose bit `i` is the bit `i` at the cursor (40_bitreader.md R121). -/
theorem exists_takeBits {n : Nat} {bs : Bits} (h : n ≤ bs.length) :
    ∃ x : BitVec n, takeBits n bs = some (x.toNat, bs.drop n) ∧ ∀ i < n, x.getLsbD i = bs.getD i false := by
  obtain ⟨⟨v, rest⟩, hv⟩ := Option.isSome_iff_exists.mp (takeBits_isSome.mpr h)
  obtain ⟨-, hrest, hlt⟩ := takeBits_rest hv
  obtain ⟨-, hbs⟩ := takeBits_eq_some.mp hv
  refine ⟨BitVec.ofNat n v, by rw [hv, hrest, BitVec.toNat_ofNat, Nat.mod_eq_of_lt hlt], fun i hi => ?_⟩
  rw [hbs, ← fieldBits_ofNat hlt, getD_fieldBits_append _ _ hi]

/-- The bits at the cursor determine what `ReadBits` answers. -/
theorem takeBits_of_getLsbD {n : Nat} {bs : Bits} {x : BitVec n} (h : n ≤ bs.length)
    (hx : ∀ i < n, x.getLsbD i = bs.getD i false) : takeBits n bs = some (x.toNat, bs.drop n) := by
  obtain ⟨y, hy, hbits⟩ := exists_takeBits h
  rw [hy, BitVec.eq_of_getLsbD_eq fun i hi => (hx i hi).trans (hbits i hi).symm]

theorem bitsAt_getElem (m : Memory) (n k i : Nat) (h : i < (bitsAt m n k).length) :
    (bitsAt m n k)[i] = inBit m (k + i) := by
  induction n generalizing k i with
  | zero => cases h
  | succ n ih =>
    cases i with
    | zero => rfl
    | succ i =>
      simp only [bitsAt, List.getElem_cons_succ, ih]
      rw [Nat.add_right_comm, Nat.add_assoc]

theorem getD_stream {s : State} {i : Nat} (h : i < avail s) :
    (stream s).getD i false = inBit s.inMem (bitOffset s + i) := by
  rw [List.getD_eq_getElem _ _ (by rwa [stream_length])]
  exact bitsAt_getElem ..

/-- Consuming no bit leaves the state alone. -/
@[simp] theorem advance_zero (s : State) : advance 0 s = s := by
  have hbyte : bitOffset s / 8 = s.curByte := by unfold bitOffset; omega
  have hbit : BitVec.ofNat 3 (bitOffset s % 8) = s.curBit := by
    apply BitVec.eq_of_toNat_eq
    rw [BitVec.toNat_ofNat, bitOffset]
    omega
  rw [advance, Nat.add_zero, setCursor, hbyte, hbit]

/-- Settles O41: the bits of the answer are the stream's, and the stream's are those of IN. -/
theorem readBitsIsLsbFirst : Obligations.ReadBitsIsLsbFirst := by
  intro n s
  refine ⟨fun h => ?_, fun h => ?_, by rw [readBits, takeBits, Option.map_some, advance_zero]⟩
  · obtain ⟨x, hx, hbits⟩ := exists_takeBits (h.trans_eq (stream_length s).symm)
    refine ⟨x.toNat, by rw [readBits, hx]; rfl, x.isLt, fun i hi => ?_⟩
    exact (hbits i hi).trans (getD_stream (Nat.lt_of_lt_of_le hi h))
  · rw [readBits, takeBits_eq_none.mpr (by rwa [stream_length]), Option.map_none]

/-! ## AlignToByte and ReadBytes -/

theorem takeBytes_isSome {n : Nat} {bs : Bits} : (takeBytes n bs).isSome ↔ 8 * n ≤ bs.length := by
  induction n generalizing bs with
  | zero => simp [takeBytes]
  | succ n ih =>
    rw [takeBytes]
    split
    next h =>
      have := takeBits_eq_none.mp h
      simp only [Option.isSome_none, Bool.false_eq_true, false_iff]
      omega
    next v rest h =>
      obtain ⟨hlen, rfl, -⟩ := takeBits_rest h
      have hn := ih (bs := bs.drop 8)
      rw [List.length_drop] at hn
      cases hl : takeBytes n (bs.drop 8) <;> simp [hl] at hn ⊢ <;> omega

theorem takeBytes_eq_none {n : Nat} {bs : Bits} : takeBytes n bs = none ↔ bs.length < 8 * n := by
  rw [← Nat.not_le, ← takeBytes_isSome, Option.not_isSome_iff_eq_none]

/-- The eight bits from a byte boundary on are the byte there (00_scope.md R11). -/
theorem bitsAt_byte (m : Memory) (a : Nat) : bitsAt m 8 (8 * a) = byteBits (readByteAt m a) := by
  refine List.ext_getElem (by simp) fun i hi _ => ?_
  rw [bitsAt_length] at hi
  refine (bitsAt_getElem ..).trans (.trans ?_ (fieldBits_getElem ..).symm)
  rw [inBit, show (8 * a + i) / 8 = a by omega,
    show (8 * a + i) % 8 = i by omega]
  rfl

/-- A bit read is cut anywhere. -/
theorem bitsAt_add (m : Memory) (n j k : Nat) : bitsAt m (n + j) k = bitsAt m n k ++ bitsAt m j (k + n) := by
  induction n generalizing k with
  | zero => rw [Nat.zero_add]; rfl
  | succ n ih => rw [Nat.succ_add, bitsAt, ih, bitsAt, List.cons_append, Nat.add_assoc, Nat.add_comm 1 n]

/-- From a byte boundary on, whole bytes are those of IN (40_bitreader.md R125). -/
theorem bitsAt_bytes (m : Memory) (a n : Nat) : bitsAt m (8 * n) (8 * a) = (readBytesAt m a n).flatMap byteBits := by
  induction n generalizing a with
  | zero => rfl
  | succ n ih =>
    rw [Nat.mul_succ, Nat.add_comm, bitsAt_add, bitsAt_byte, ← Nat.mul_succ, ih]
    rfl

theorem alignToByte_eq (s : State) : alignToByte s = { s with curByte := alignedByte s, curBit := 0 } := by
  unfold alignToByte alignedByte
  split
  next h => rw [← h]; rfl
  next => rfl

theorem bitOffset_alignToByte_eq (s : State) : bitOffset (alignToByte s) = 8 * alignedByte s := by
  rw [alignToByte_eq]
  rfl

/-- A byte read leaves the cursor behind its last byte. -/
theorem skipBytes_eq (n : Nat) (s : State) :
    skipBytes n s = { s with curByte := alignedByte s + n, curBit := 0 } := by
  rw [skipBytes, advance, bitOffset_alignToByte_eq, ← Nat.mul_add, setCursor, alignToByte_eq,
    Nat.mul_div_cancel_left _ (by decide), Nat.mul_mod_right]
  rfl

/-- Behind the pad the stream goes on at the aligned byte. -/
theorem stream_drop_padLen (s : State) :
    (stream s).drop (padLen s) = bitsAt s.inMem (8 * (s.inLen - alignedByte s)) (8 * alignedByte s) := by
  have h : bitOffset s + padLen s = 8 * alignedByte s := by
    rw [← bitOffset_alignToByte, bitOffset_alignToByte_eq]
  rw [stream, bitsAt_drop, h, avail]
  congr 1
  omega

/-- Settles O42: behind the pad the bits are those of the bytes from the aligned cursor on. -/
theorem readBytesAlignsAndReads : Obligations.ReadBytesAlignsAndReads := by
  refine ⟨fun s => ⟨fun h => if_pos h, fun h => if_neg h, ?_⟩, fun n s hn => ⟨fun h => ?_, fun h => ?_⟩⟩
  · rw [bitOffset_alignToByte, padLen]
    omega
  · have hbits : 8 * (s.inLen - alignedByte s) = 8 * n + 8 * (s.inLen - alignedByte s - n) := by omega
    rw [readBytes, stream_drop_padLen, hbits, bitsAt_add, bitsAt_bytes,
      takeBytes_eq_some.mpr ⟨readBytesAt_length .., rfl⟩, Option.map_some, skipBytes_eq]
  · rw [readBytes, stream_drop_padLen, takeBytes_eq_none.mpr (by rw [bitsAt_length]; omega), Option.map_none]

end Sys2Proof.Machine

/-! # Truncated elements

Where the data ends inside an element: what its decoder has read by then, and the step (40_bitreader.md R128, R129). -/

namespace Sys2Proof.Machine

/-! ## The step of a fetched element -/

/-- Where ST expects an element, the core runs what it decodes at the cursor (45_engine.md R261). -/
theorem coreStep_of_contextOf {s : State} {ctx : Ctx} (h : contextOf s = some ctx) :
    coreStep s = runDecoded (decode ctx (stream s)) s := by
  unfold coreStep
  split
  next hst => simp [contextOf, hst] at h
  next hst => simp [contextOf, hst] at h
  next => simp only [fetch, h, Option.map_some]

/-- With no host move waiting the step is the core's (45_engine.md R260). -/
theorem step_of_host_nil {s : State} (h : s.host = []) : step s = coreStep s := by rw [step, engineStep, h]

/-- Settles O12: the core runs what it decodes, and a truncated element is the error entry behind its reads. -/
theorem truncatedElementRaisesEndOfData : Obligations.TruncatedElementRaisesEndOfData := by
  intro s ctx p n hhost hctx hd
  rw [step_of_host_nil hhost, coreStep_of_contextOf hctx, hd]
  rfl

/-! ## Elements of whole bytes -/

/-- A 16-bit field of whole bytes, low byte first (43_blocks.md R192). -/
theorem exists_takeBytes_le16 {bs : Bits} (h : 16 ≤ bs.length) :
    ∃ a, takeBytes 2 bs = some (a, bs.drop 16) ∧
      ∀ i < 16, (le16 (a.getD 0 0) (a.getD 1 0)).getLsbD i = bs.getD i false := by
  obtain ⟨⟨a, rest⟩, ha⟩ := Option.isSome_iff_exists.mp (takeBytes_isSome (n := 2).mpr h)
  obtain ⟨-, hrest⟩ := takeBytes_rest ha
  obtain ⟨hlen, hbs⟩ := takeBytes_eq_some.mp ha
  obtain ⟨lo, hi, rfl⟩ := List.length_eq_two.mp hlen
  refine ⟨[lo, hi], by rw [ha, hrest], fun i hi' => ?_⟩
  rw [hbs]
  show _ = (byteBits lo ++ (byteBits hi ++ []) ++ rest).getD i false
  rw [List.append_nil, ← fieldBits_le16, getD_fieldBits_append _ _ hi']
  rfl

/-- A byte read behind a pad fails where its bytes are not all there. -/
theorem takeBytes_drop_eq_none {n pad : Nat} {bs : Bits} (hn : 1 ≤ n) (h : bs.length < pad + 8 * n) :
    takeBytes n (bs.drop pad) = none :=
  takeBytes_eq_none.mpr (by rw [List.length_drop]; omega)

/-- A stored header without NLEN keeps LEN (43_blocks.md R192). -/
theorem decodeSthdr_without_nlen {pad : Nat} {bs : Bits} (h : pad + 16 ≤ bs.length) (h' : bs.length < pad + 32) :
    ∃ len, decodeSthdr pad bs = .endOfData (.slen len) (pad + 16) ∧
      ∀ j < 16, len.getLsbD j = bs.getD (pad + j) false := by
  obtain ⟨a, ha, hbits⟩ := exists_takeBytes_le16 (bs := bs.drop pad) (by rw [List.length_drop]; omega)
  have hb : takeBytes 2 ((bs.drop pad).drop 16) = none := by
    rw [List.drop_drop]
    exact takeBytes_drop_eq_none (by decide) (by omega)
  refine ⟨le16 (a.getD 0 0) (a.getD 1 0), ?_, fun j hj => by rw [hbits j hj, getD_drop]⟩
  simp only [decodeSthdr, ha, hb]

/-! ## The block header -/

/-- A block header without BTYPE keeps BFINAL (43_blocks.md R186). -/
theorem decodeBhdr_without_btype {bs : Bits} (h : 1 ≤ bs.length) (h' : bs.length < 3) :
    decodeBhdr bs = .endOfData (.bfinal (bs.getD 0 false)) 1 := by
  cases bs with
  | nil => cases h
  | cons f rest =>
    have hf : takeBits 1 (f :: rest) = some (f.toNat, rest) := rfl
    have ht : takeBits 2 rest = none := takeBits_eq_none.mpr (Nat.lt_of_succ_lt_succ h')
    simp only [decodeBhdr, hf, ht]
    cases f <;> rfl

/-! ## The dynamic header -/

theorem takeLens_of_short {bs : Bits} (n : Nat) (h : bs.length < 3) : takeLens n bs = [] := by
  cases n with
  | zero => rfl
  | succ n => rw [takeLens, takeBits_eq_none.mpr h]

/-- A length that is there is read, and the rest behind it. -/
theorem takeLens_succ {bs : Bits} (n : Nat) (h : 3 ≤ bs.length) :
    ∃ x : BitVec 3, takeLens (n + 1) bs = x :: takeLens n (bs.drop 3) ∧ ∀ j < 3, x.getLsbD j = bs.getD j false := by
  obtain ⟨x, hx, hbits⟩ := exists_takeBits h
  exact ⟨x, by simp [takeLens, hx], hbits⟩

/-- As many lengths are read as are whole (43_blocks.md R200). -/
theorem takeLens_length_eq (n : Nat) (bs : Bits) : (takeLens n bs).length = min n (bs.length / 3) := by
  induction n generalizing bs with
  | zero => exact (Nat.zero_min _).symm
  | succ n ih =>
    obtain h | h := Nat.lt_or_ge bs.length 3
    · rw [takeLens_of_short _ h, List.length_nil]
      omega
    · obtain ⟨x, hx, -⟩ := takeLens_succ n h
      rw [hx, List.length_cons, ih, List.length_drop]
      omega

/-- Length `k` is read from the three bits of its place. -/
theorem takeLens_getLsbD {n k j : Nat} {bs : Bits} (hk : k < (takeLens n bs).length) (hj : j < 3) :
    ((takeLens n bs).getD k 0).getLsbD j = bs.getD (3 * k + j) false := by
  induction n generalizing k bs with
  | zero => cases hk
  | succ n ih =>
    obtain h | h := Nat.lt_or_ge bs.length 3
    · rw [takeLens_of_short _ h] at hk
      cases hk
    · obtain ⟨x, hx, hbits⟩ := takeLens_succ n h
      rw [hx] at hk ⊢
      cases k with
      | zero => rw [List.getD_cons_zero, hbits j hj, Nat.mul_zero, Nat.zero_add]
      | succ k =>
        rw [List.getD_cons_succ, ih (Nat.lt_of_succ_lt_succ hk), getD_drop]
        congr 1
        omega

theorem decodeDynhdr_without_hlit {bs : Bits} (h : bs.length < 5) : decodeDynhdr bs = .endOfData .nothing 0 := by
  simp only [decodeDynhdr, takeBits_eq_none.mpr h]

/-- A dynamic header without HDIST keeps HLIT. -/
theorem decodeDynhdr_without_hdist {bs : Bits} (h : 5 ≤ bs.length) (h' : bs.length < 10) :
    ∃ x, decodeDynhdr bs = .endOfData (.hlit x) 5 ∧ ∀ j < 5, x.getLsbD j = bs.getD j false := by
  obtain ⟨x, hx, hbits⟩ := exists_takeBits h
  have hd : takeBits 5 (bs.drop 5) = none := takeBits_eq_none.mpr (by rw [List.length_drop]; omega)
  exact ⟨x, by simp [decodeDynhdr, hx, hd], hbits⟩

/-- A dynamic header without HCLEN keeps HLIT and HDIST. -/
theorem decodeDynhdr_without_hclen {bs : Bits} (h : 10 ≤ bs.length) (h' : bs.length < 14) :
    ∃ x y, decodeDynhdr bs = .endOfData (.hlitHdist x y) 10 ∧
      ∀ j < 5, x.getLsbD j = bs.getD j false ∧ y.getLsbD j = bs.getD (5 + j) false := by
  obtain ⟨x, hx, hxbits⟩ := exists_takeBits (n := 5) (bs := bs) (by omega)
  obtain ⟨y, hy, hybits⟩ := exists_takeBits (n := 5) (bs := bs.drop 5) (by rw [List.length_drop]; omega)
  have hc : takeBits 4 ((bs.drop 5).drop 5) = none := takeBits_eq_none.mpr (by simp only [List.length_drop]; omega)
  refine ⟨x, y, ?_, fun j hj => ⟨hxbits j hj, by rw [hybits j hj, getD_drop]⟩⟩
  simp only [decodeDynhdr, hx, hy, hc, BitVec.ofNat_toNat, BitVec.setWidth_eq]

/-- A dynamic header whose lengths are not all there keeps its counts and the whole lengths (43_blocks.md R200). -/
theorem decodeDynhdr_without_lengths {bs : Bits} {x y : BitVec 5} {c : BitVec 4} (h : 14 ≤ bs.length)
    (hxy : ∀ j : Nat, j < 5 → x.getLsbD j = bs.getD j false ∧ y.getLsbD j = bs.getD (5 + j) false)
    (hc : ∀ j : Nat, j < 4 → c.getLsbD j = bs.getD (10 + j) false) (h' : bs.length < 14 + 3 * (c.toNat + 4)) :
    ∃ cl, decodeDynhdr bs = .endOfData (.clls x y c cl) (14 + 3 * cl.length) ∧ cl.length = (bs.length - 14) / 3 ∧
      ∀ k j : Nat, k < cl.length → j < 3 → (cl.getD k 0).getLsbD j = bs.getD (14 + 3 * k + j) false := by
  have htx : takeBits 5 bs = some (x.toNat, bs.drop 5) :=
    takeBits_of_getLsbD (by omega) fun j hj => (hxy j hj).1
  have hty : takeBits 5 (bs.drop 5) = some (y.toNat, bs.drop 10) := by
    rw [takeBits_of_getLsbD (x := y) (by rw [List.length_drop]; omega) fun j hj => by rw [getD_drop, (hxy j hj).2],
      List.drop_drop]
  have htc : takeBits 4 (bs.drop 10) = some (c.toNat, bs.drop 14) := by
    rw [takeBits_of_getLsbD (x := c) (by rw [List.length_drop]; omega) fun j hj => by rw [getD_drop, hc j hj],
      List.drop_drop]
  have hlen : (takeLens (c.toNat + 4) (bs.drop 14)).length = (bs.length - 14) / 3 := by
    rw [takeLens_length_eq, List.length_drop]
    omega
  have hne : (takeLens (c.toNat + 4) (bs.drop 14)).length ≠ c.toNat + 4 := by omega
  refine ⟨takeLens (c.toNat + 4) (bs.drop 14), ?_, hlen, fun k j hk hj => ?_⟩
  · simp only [decodeDynhdr, htx, hty, htc, BitVec.ofNat_toNat, BitVec.setWidth_eq, if_neg hne]
  · rw [takeLens_getLsbD hk hj, getD_drop, Nat.add_assoc]

/-! ## Coded elements -/

theorem codeBits_eq_map (n c : Nat) : codeBits n c = (List.range n).map fun j => c.testBit (n - 1 - j) := by
  induction n with
  | zero => rfl
  | succ n ih =>
    rw [codeBits, ih, List.range_succ_eq_map, List.map_cons, List.map_map]
    refine congrArg₂ List.cons (by simp) (List.map_congr_left fun j _ => ?_)
    simp only [Function.comp_apply]
    congr 1
    omega

/-- A search the data ends has read all of it (41_huffman.md R146). -/
theorem searchCode_endOfData {t : HuffTable} {fuel code n n' : Nat} {bs : Bits}
    (h : searchCode t fuel code n bs = .endOfData n') : n' = n + bs.length := by
  induction fuel generalizing code n bs with
  | zero => cases h
  | succ fuel ih =>
    cases bs with
    | nil => cases h; rfl
    | cons b bs =>
      unfold searchCode at h
      split at h
      · cases h
      · rw [ih h, List.length_cons]
        omega

/-- A search without a match has used up its turns (41_huffman.md R147). -/
theorem searchCode_noMatch {t : HuffTable} {fuel code n n' : Nat} {bs : Bits}
    (h : searchCode t fuel code n bs = .noMatch n') : n' = n + fuel := by
  induction fuel generalizing code n bs with
  | zero => cases h; rfl
  | succ fuel ih =>
    cases bs with
    | nil => cases h
    | cons b bs =>
      unfold searchCode at h
      split at h
      · cases h
      · rw [ih h]
        omega

/-- Where no code stands at the front and fewer bits than a code may take are left, the search reads them all. -/
theorem decodeSymbol_of_no_code {t : HuffTable} {bs : Bits} (hcode : ∀ e ∈ t, ¬ codeBits e.len e.code <+: bs)
    (h : bs.length < 15) : decodeSymbol t bs = .endOfData bs.length := by
  cases hd : decodeSymbol t bs with
  | found sym n rest =>
    obtain ⟨e, he, -, hlen, k, hk, -, hbs⟩ := bits_of_searchCode hd
    refine absurd ⟨rest, ?_⟩ (hcode e he)
    rw [hbs, hlen, hk, Nat.zero_add]
  | endOfData n => rw [searchCode_endOfData hd, Nat.zero_add]
  | noMatch n =>
    obtain ⟨-, hle⟩ := searchCode_short (.inr hd)
    have := searchCode_noMatch hd
    omega

theorem readCoded_of_no_code {t : HuffTable} {ext : Nat → Nat} {bs : Bits}
    (hcode : ∀ e ∈ t, ¬ codeBits e.len e.code <+: bs) (h : bs.length < 15) :
    readCoded t ext bs = .endOfData bs.length := by
  rw [readCoded, decodeSymbol_of_no_code hcode h]

/-- A code whose extra bits are not all there stays consumed (40_bitreader.md R128). -/
theorem readCoded_without_extra {t : HuffTable} {ext : Nat → Nat} {bs rest : Bits} {sym n : Nat}
    (hd : decodeSymbol t bs = .found sym n rest) (h : rest.length < ext sym) : readCoded t ext bs = .endOfData n := by
  simp only [readCoded, hd, takeBits_eq_none.mpr h]

/-- A truncated coded element has read no field. -/
theorem finishCoded_of_endOfData {ext : Nat → Nat} {mk : Nat → Nat → Nat → Option Instr} {c : Coded} {n : Nat}
    (h : c = .endOfData n) : finishCoded ext mk c = .endOfData .nothing n := by
  rw [h, finishCoded]

/-- Settles O13: one lemma for each place where an element can end; the registers are those `keepPartial` writes. -/
theorem truncatedHeadersKeepTheirFirstField : Obligations.TruncatedHeadersKeepTheirFirstField := by
  intro bs pad
  refine ⟨fun h => ?zhdrAndSthdr, fun h => ?stbyte, fun h => ?ztrl, decodeSthdr_without_nlen, ?bhdr,
    decodeBhdr_without_btype, decodeDynhdr_without_hlit, decodeDynhdr_without_hdist, decodeDynhdr_without_hclen,
    fun x y c h hxy hc => decodeDynhdr_without_lengths h hxy hc, fun t ext => ⟨fun hcode => ?code, ?extra⟩,
    fun t n => ?element, fun s => ?registers⟩
  case zhdrAndSthdr =>
    have hnone : takeBytes 2 (bs.drop pad) = none := takeBytes_drop_eq_none (by decide) h
    exact ⟨by rw [decode, decodeZhdr, hnone], by rw [decode, decodeSthdr, hnone]⟩
  case stbyte => rw [decode, decodeStbyte, takeBytes_drop_eq_none (by decide) h]
  case ztrl => rw [decode, decodeZtrl, takeBytes_drop_eq_none (by decide) h]
  case bhdr =>
    rintro rfl
    rfl
  case code => exact readCoded_of_no_code (by simpa only [codeBits_eq_map] using hcode)
  case extra => exact fun sym n rest => readCoded_without_extra
  case element =>
    simp only [decode]
    exact ⟨fun p => finishCoded_of_endOfData, finishCoded_of_endOfData, finishCoded_of_endOfData,
      fun m => ⟨finishCoded_of_endOfData, finishCoded_of_endOfData⟩⟩
  case registers => exact ⟨rfl, fun f => rfl, fun v => rfl, fun x => rfl, fun x y => rfl, fun x y c cl => rfl⟩

end Sys2Proof.Machine

/-! # Canonical codes: what Build assigns is a complete prefix code

The lookup and the search meet every entry of a prefix-free table; Build has an entry for each symbol of nonzero length;
and the codes of a built table leave no sequence of 15 bits without a code (41_huffman.md R141 to R151). -/

namespace Sys2Proof.Machine

/-! ## Looking up and decoding an entry -/

/-- In a prefix-free table a code has one symbol. -/
theorem lookupCode_of_mem {t : HuffTable} {e : CodeEntry} (h : prefixFree t) (he : e ∈ t) :
    lookupCode t e.code e.len = some e.sym := by
  cases hl : lookupCode t e.code e.len with
  | none => exact absurd rfl (lookupCode_eq_none.mp hl e he rfl)
  | some sym =>
    obtain ⟨f, hf, hcode, hlen, rfl⟩ := lookupCode_eq_some hl
    rw [h.eq_of_isPrefixOf hf he ⟨hlen.le, by rw [hcode, hlen, Nat.sub_self, pow_zero, Nat.div_one]⟩]

/-- Settles O45: the bits of the statement are those the encoder writes for a code, which the search finds. -/
theorem decodeFindsEveryCode : Obligations.DecodeFindsEveryCode := by
  intro t e rest hfit hpre he
  rw [← codeBits_eq_map]
  exact (decodeSymbol_eq_found hfit hpre).mpr ⟨e, he, rfl, rfl, rfl⟩

/-! ## The fixed tables -/

theorem lookupCode_fixLit {e : CodeEntry} (he : e ∈ fixLit) : lookupCode fixLit e.code e.len = some e.sym :=
  lookupCode_of_mem prefixCode_fixLit.prefixFree he

theorem mem_fixLit {e : CodeEntry} :
    e ∈ fixLit ↔ (∃ k < 144, ⟨0x30 + k, 8, k⟩ = e) ∨ (∃ k < 112, ⟨0x190 + k, 9, 144 + k⟩ = e) ∨
      (∃ k < 24, ⟨k, 7, 256 + k⟩ = e) ∨ ∃ k < 8, ⟨0xC0 + k, 8, 280 + k⟩ = e := by
  simp only [fixLit, List.mem_append, List.mem_map, List.mem_range, or_assoc]

theorem mem_fixDist {e : CodeEntry} : e ∈ fixDist ↔ ∃ k < 32, ⟨k, 5, k⟩ = e := by
  simp only [fixDist, List.mem_map, List.mem_range]

/-- Settles O46: both tables are Build's answers, so they are prefix-free and a lookup finds each entry they list. -/
theorem fixedTablesAreBuilt : Obligations.FixedTablesAreBuilt :=
  ⟨build_fixLitLengths, build_fixDistLengths,
    fun k hk => lookupCode_fixLit (mem_fixLit.mpr (.inl ⟨k, hk, rfl⟩)),
    fun k hk => lookupCode_fixLit (mem_fixLit.mpr (.inr (.inl ⟨k, hk, rfl⟩))),
    fun k hk => lookupCode_fixLit (mem_fixLit.mpr (.inr (.inr (.inl ⟨k, hk, rfl⟩)))),
    fun k hk => lookupCode_fixLit (mem_fixLit.mpr (.inr (.inr (.inr ⟨k, hk, rfl⟩)))),
    fun k hk => lookupCode_of_mem prefixCode_fixDist.prefixFree (mem_fixDist.mpr ⟨k, hk, rfl⟩)⟩

/-! ## The entries of a built table -/

theorem build_isSome {lens : List Nat} : (build lens).isSome = true ↔ kraftSum lens = 2 ^ 15 := by
  unfold build
  split
  next h => exact iff_of_true rfl h
  next h => exact iff_of_false Bool.false_ne_true h

theorem kraftSum_replicate_zero (n : Nat) : kraftSum (List.replicate n 0) = 0 := by
  simp [kraftSum]

/-- Build has an entry for each symbol of nonzero length, in increasing order (41_huffman.md R142). -/
theorem map_sym_assignCodes (next : List Nat) (sym : Nat) (lens : List Nat) :
    (assignCodes next sym lens).map CodeEntry.sym =
      ((List.range lens.length).filter fun k => lens.getD k 0 ≠ 0).map (sym + ·) := by
  induction lens generalizing next sym with
  | nil => rfl
  | cons l ls ih =>
    have htail : (((List.range ls.length).map Nat.succ).filter fun k => (l :: ls).getD k 0 ≠ 0).map (sym + ·) =
        ((List.range ls.length).filter fun k => ls.getD k 0 ≠ 0).map (sym + 1 + ·) := by
      rw [List.filter_map, List.map_map]
      exact List.map_congr_left fun k _ => (Nat.add_right_comm sym k 1)
    rw [List.length_cons, List.range_succ_eq_map, assignCodes]
    split
    next h0 =>
      rw [ih, List.filter_cons_of_neg (by simpa using h0), htail]
    next h0 =>
      rw [List.map_cons, ih, List.filter_cons_of_pos (by simpa using h0), List.map_cons, htail]
      rfl

/-- The entry of a symbol of nonzero length (41_huffman.md R142). -/
theorem mem_build_of_getElem? {lens : List Nat} {t : HuffTable} {sym l : Nat} (hlens : ∀ x ∈ lens, x ≤ 15)
    (h : build lens = some t) (hsym : lens[sym]? = some l) (h0 : l ≠ 0) :
    ⟨firstCode lens l + (lens.take sym).count l, l, sym⟩ ∈ t := by
  obtain ⟨-, rfl⟩ := build_eq_some h
  have h15 : l < 16 := Nat.lt_succ_of_le (hlens l (List.mem_of_getElem? hsym))
  refine (mem_assignCodes fun x hx => ?_).mpr ⟨sym, hsym, h0, (Nat.zero_add sym).symm, ?_⟩
  · rw [List.length_map, List.length_range]
    exact Nat.lt_succ_of_le (hlens x hx)
  · rw [List.getD_eq_getElem?_getD, List.getElem?_map, List.getElem?_range h15]
    rfl

/-- Settles O43: acceptance and the first codes are Build's equations, and a lookup finds the entry of each symbol since
the codes of a built table are prefix-free. -/
theorem buildAssignsCanonicalCodes : Obligations.BuildAssignsCanonicalCodes := by
  refine ⟨fun lens => build_isSome, fun n => ?zeros, fun lens => ⟨rfl, fun n hn => ?first⟩,
    fun lens t sym l hlens h => ⟨?symbols, fun hsym h0 => ?code⟩⟩
  case zeros => rw [build, kraftSum_replicate_zero, if_neg (by decide)]
  case first =>
    obtain ⟨m, rfl⟩ : ∃ m, n = m + 1 := ⟨n - 1, by omega⟩
    have hm : m ≠ 0 := by omega
    rw [firstCode_succ lens hm, blCount, if_neg hm, Nat.shiftLeft_eq, pow_one, Nat.mul_comm, Nat.add_sub_cancel]
  case symbols =>
    obtain ⟨-, rfl⟩ := build_eq_some h
    simpa using map_sym_assignCodes ((List.range 16).map (firstCode lens)) 0 lens
  case code => exact lookupCode_of_mem (prefixFree_of_build hlens h) (mem_build_of_getElem? hlens h hsym h0)

/-! ## Completeness -/

/-- Every bit sequence is the code of a number that fits it. -/
theorem exists_codeBits_eq (bs : Bits) : ∃ v < 2 ^ bs.length, codeBits bs.length v = bs := by
  refine ⟨Nat.ofBits fun i : Fin bs.length => bs[i.rev.val], Nat.ofBits_lt_two_pow _, ?_⟩
  rw [codeBits_eq_map]
  refine List.ext_getElem (by simp) fun j _ hj => ?_
  rw [List.getElem_map, List.getElem_range, Nat.testBit_ofBits_lt _ _ (by omega)]
  have hrev : bs.length - (bs.length - 1 - j + 1) = j := by omega
  exact getElem_congr_idx hrev

/-- The first bits of a code are those of its quotient. -/
theorem codeBits_add (n k c : Nat) : codeBits (n + k) c = codeBits n (c / 2 ^ k) ++ codeBits k c := by
  induction n with
  | zero => rw [Nat.zero_add, codeBits, List.nil_append]
  | succ n ih => rw [Nat.add_right_comm, codeBits, codeBits, ih, Nat.testBit_div_two_pow, List.cons_append]

/-- No length goes past 15, so the codes of up to 15 bits are all the codes. -/
theorem kraftSumTo_fifteen {lens : List Nat} (hlens : ∀ l ∈ lens, l ≤ 15) : kraftSumTo 15 lens = kraftSum lens := by
  refine congrArg List.sum (List.map_congr_left fun l hl => ?_)
  simp only [Nat.not_lt.mpr (hlens l hl), or_false]

/-- The codes of length `n + 1` begin where the share of the shorter ones ends. -/
theorem firstCode_mul (lens : List Nat) {n : Nat} (hn : n < 15) :
    firstCode lens (n + 1) * 2 ^ (15 - (n + 1)) = kraftSumTo n lens := by
  have hend := firstCode_add_blCount lens hn
  rw [kraftSumTo_succ, Nat.add_mul] at hend
  exact Nat.add_right_cancel hend

/-- Below the share of the codes of up to `m` bits, a 15-bit number lies in the share of one of the lengths. -/
theorem exists_kraftSumTo_le_lt {lens : List Nat} {v m : Nat} (h : v < kraftSumTo m lens) :
    ∃ n < m, kraftSumTo n lens ≤ v ∧ v < kraftSumTo (n + 1) lens := by
  induction m with
  | zero => exact absurd h (by rw [kraftSumTo_zero]; exact v.not_lt_zero)
  | succ m ih =>
    obtain hle | hlt := le_or_gt (kraftSumTo m lens) v
    · exact ⟨m, Nat.lt_succ_self m, hle, h⟩
    · obtain ⟨n, hn, hv⟩ := ih hlt
      exact ⟨n, Nat.lt_succ_of_lt hn, hv⟩

/-- Every number that falls among the codes of a length is the code of a symbol of that length. -/
theorem exists_mem_build_of_code {lens : List Nat} {t : HuffTable} {l c : Nat} (hlens : ∀ x ∈ lens, x ≤ 15)
    (h : build lens = some t) (h0 : l ≠ 0) (hle : firstCode lens l ≤ c)
    (hlt : c < firstCode lens l + blCount lens l) : ∃ sym, ⟨c, l, sym⟩ ∈ t := by
  rw [blCount, if_neg h0] at hlt
  have hcount : c - firstCode lens l < lens.count l := by omega
  have hsym : lens[lens.idxOfNth l (c - firstCode lens l)]? = some l := by
    rw [List.getElem?_eq_getElem (List.idxOfNth_lt_length_of_lt_count hcount), List.getElem_idxOfNth_eq]
  have hmem := mem_build_of_getElem? hlens h hsym h0
  rw [← List.countBefore_eq_count_take, List.countBefore_idxOfNth_of_lt_count hcount, Nat.add_sub_cancel' hle] at hmem
  exact ⟨_, hmem⟩

/-- A 15-bit number begins with a code: the one of the length in whose share it lies. -/
theorem exists_code_of_lt {lens : List Nat} {t : HuffTable} {v : Nat} (hlens : ∀ l ∈ lens, l ≤ 15)
    (h : build lens = some t) (hv : v < 2 ^ 15) : ∃ e ∈ t, e.len ≤ 15 ∧ v / 2 ^ (15 - e.len) = e.code := by
  rw [← (build_eq_some h).1, ← kraftSumTo_fifteen hlens] at hv
  obtain ⟨n, hn, hlo, hhi⟩ := exists_kraftSumTo_le_lt hv
  rw [← firstCode_mul lens hn] at hlo
  rw [← firstCode_add_blCount lens hn] at hhi
  obtain ⟨sym, hmem⟩ := exists_mem_build_of_code hlens h n.succ_ne_zero
    ((Nat.le_div_iff_mul_le (by positivity)).mpr hlo) (Nat.div_lt_of_lt_mul (by rwa [Nat.mul_comm]))
  exact ⟨_, hmem, hn, rfl⟩

/-- Every sequence of 15 bits begins with a code of a built table (41_huffman.md R143). -/
theorem complete_of_build {lens : List Nat} {t : HuffTable} (hlens : ∀ l ∈ lens, l ≤ 15) (h : build lens = some t) :
    complete t := by
  intro bs hbs
  obtain ⟨v, hv, hbits⟩ := exists_codeBits_eq bs
  rw [hbs] at hv hbits
  obtain ⟨e, he, h15, hcode⟩ := exists_code_of_lt hlens h hv
  refine ⟨e.sym, e.len, codeBits (15 - e.len) v,
    (decodeSymbol_eq_found (codesFit_of_build hlens h) (prefixFree_of_build hlens h)).mpr ⟨e, he, rfl, rfl, ?_⟩⟩
  rw [← hcode, ← codeBits_add, Nat.add_sub_cancel' h15, hbits]

/-- Settles O44: the codes of a built table are disjoint shares of the `2^15` sequences, and Build accepts only where the
shares are all of them. -/
theorem buildGivesACompletePrefixCode : Obligations.BuildGivesACompletePrefixCode := fun _ _ hlens h =>
  ⟨codesFit_of_build hlens h, prefixFree_of_build hlens h, oneCodeEach_of_build h, complete_of_build hlens h⟩

end Sys2Proof.Machine

/-! # The zlib envelope

With room for its record, a pseudo-block's row answers the whole next state (42_zlib_envelope.md R171 to R180). -/

namespace Sys2Proof.Machine

/-- With room, a pseudo-block appends its record, and nothing else of the state changes. -/
theorem appendRecord_pseudoBlock {s : State} (hroom : recordRoom s) (index : Nat) (kind : BlockKind) (item : ItemKind)
    (a b : Nat) :
    appendRecord (pseudoBlock index kind item a b s) s =
      .next { s with
        trace := s.trace ++ [pseudoRecord index kind item a b s.outLen], blkCount := s.blkCount + 1 } := by
  obtain ⟨hblocks, hitems⟩ := hroom
  rw [pseudoBlock_eq]
  exact appendRecord_next.mpr ⟨hblocks, fun _ => hitems, rfl⟩

/-- A byte read ends a whole number of bytes behind the aligned cursor. -/
theorem bitOffset_skipBytes_eq (n : Nat) (s : State) : bitOffset (skipBytes n s) = 8 * alignedByte s + 8 * n := by
  rw [bitOffset_skipBytes, ← bitOffset_alignToByte, bitOffset_alignToByte_eq]

/-- Settles O17: the header's record finds room, and the cursor is that of a read of two bytes. -/
theorem zhdrRecordsTheHeader : Obligations.ZhdrRecordsTheHeader := by
  intro cmf flg s hroom
  show execZhdr cmf flg s = _
  rw [execZhdr, skipBytes_eq, appendRecord_pseudoBlock (by exact hroom)]
  rfl

/-- Settles O35: the trailer's record finds room, and it covers the four bytes read up to the cursor. -/
theorem ztrlRecordsTheChecksum : Obligations.ZtrlRecordsTheChecksum := by
  intro a s hroom
  have hend : bitOffset { skipBytes 4 s with adler := a, trlValid := true } = 8 * alignedByte s + 32 :=
    bitOffset_skipBytes_eq 4 s
  show execZtrl a s = _
  rw [execZtrl, hend, Nat.add_sub_cancel, skipBytes_eq, appendRecord_pseudoBlock (by exact hroom)]
  rfl

end Sys2Proof.Machine

/-! # The blocks

With room for its record, item or byte, each row of a block's header answers the whole next state
(43_blocks.md R186 to R205). -/

namespace Sys2Proof.Machine

/-! ## What room gives -/

/-- With room, an item that ends at the cursor goes to the open record, and nothing else of the state changes. -/
theorem emitItem_of_room {s : State} {stop : Nat} (hroom : itemRoom s) (hstop : bitOffset s = stop) (k : ItemKind)
    (start : Nat) : emitItem k start s = .next { s with trace := traceWithItem s k start stop } := by
  subst hstop
  exact emitItem_eq_next.mpr ⟨hroom, rfl⟩

/-- With room for a byte, it goes to the end of OUT. -/
theorem outAppend_of_room {s : State} (hroom : outRoom 1 s) (b : Byte) :
    outAppend b s = .next { s with out := writeByteAt s.out s.outLen b, outLen := s.outLen + 1 } :=
  outAppend_next.mpr ⟨hroom 0 (by decide), rfl⟩

/-! ## Runs of code lengths -/

/-- A run of `r` lengths from place `i` on fills its places, and every other place keeps its length. -/
theorem writeRun_getElem? {l : List (BitVec 4)} {j : Nat} (hj : j < l.length) (i r : Nat) (v : BitVec 4) :
    (writeRun l i r v)[j]? = if i ≤ j ∧ j < i + r then some v else l[j]? := by
  induction r generalizing l i with
  | zero =>
    rw [if_neg (by omega)]
    rfl
  | succ r ih =>
    rw [writeRun, ih (by rwa [List.length_set])]
    by_cases hij : i = j
    · subst hij
      rw [if_neg (by omega), if_pos (by omega), List.getElem?_set_self hj]
    · rw [List.getElem?_set_ne hij]
      exact if_congr (by omega) rfl rfl

/-- The end of a DYN_LENS step writes ST alone. -/
theorem lensNext_eq (s : State) :
    lensNext s = { s with st := if s.lcnt.toNat = s.hlit.toNat + s.hdist.toNat then .dynTables else s.st } := by
  unfold lensNext
  split <;> rfl

/-- `lengthsWritten` behind `n` bits in closed form: where a run of `r` lengths `v` leads, with the item of its
entry (43_blocks.md R202 to R204). -/
abbrev runWritten (sym : Nat) (extra : Option Nat) (r : Nat) (v : BitVec 4) (n : Nat) (s : State) : State :=
  { setCursor (bitOffset s + n) s with
    lens := writeRun s.lens s.lcnt.toNat r v, lcnt := BitVec.ofNat 9 (s.lcnt.toNat + r)
    trace := traceWithItem s (.dynamicCodeLengthEntry sym extra r v.toNat s.lcnt.toNat) (bitOffset s) (bitOffset s + n)
    st := if s.lcnt.toNat + r = s.hlit.toNat + s.hdist.toNat then .dynTables else s.st }

/-- A run that ends within HLIT + HDIST does not wrap LCNT, so the step ends at DYN_TABLES exactly with the last
length. -/
theorem writeLengths_of_fits {r : Nat} {s : State} (hcounts : countsInRange s)
    (hfits : s.lcnt.toNat + r ≤ s.hlit.toNat + s.hdist.toNat) (hroom : itemRoom s) (sym : Nat) (extra : Option Nat)
    (v : BitVec 4) (n : Nat) :
    writeLengths sym extra r v (bitOffset s) (advance n s) = .next (runWritten sym extra r v n s) := by
  obtain ⟨-, hlit, -, hdist⟩ := hcounts
  have hlcnt : (BitVec.ofNat 9 (s.lcnt.toNat + r)).toNat = s.lcnt.toNat + r :=
    (BitVec.toNat_ofNat _ _).trans (Nat.mod_eq_of_lt (by omega))
  refine andThen_next.mpr ⟨_, emitItem_of_room (by exact hroom) (by exact bitOffset_advance n s) _ _, ?_⟩
  simp only [lensNext_eq, advance_lcnt, hlcnt]
  rfl

/-- A repeat that ends within HLIT + HDIST writes its run. -/
theorem repeatLengths_of_fits {r : Nat} {s : State} (hcounts : countsInRange s)
    (hfits : s.lcnt.toNat + r ≤ s.hlit.toNat + s.hdist.toNat) (hroom : itemRoom s) (sym extra : Nat)
    (v : BitVec 4) (n : Nat) :
    repeatLengths sym extra r v (bitOffset s) (advance n s) = .next (runWritten sym (some extra) r v n s) :=
  (if_neg (Nat.not_lt.mpr hfits)).trans (writeLengths_of_fits hcounts hfits hroom sym (some extra) v n)

/-- A repeat past HLIT + HDIST raises InvalidCodeLengths and writes nothing. -/
theorem repeatLengths_of_overrun {r : Nat} {s : State} (hover : s.hlit.toNat + s.hdist.toNat < s.lcnt.toNat + r)
    (sym extra : Nat) (v : BitVec 4) (start n : Nat) :
    repeatLengths sym extra r v start (advance n s) =
      .next (raise .invalidCodeLengths (setCursor (bitOffset s + n) s)) := if_pos hover

/-- Settles O25: each row is a repeat that fits; for CL_16 the length repeated is the one before LCNT. -/
theorem clRepeatWritesARun : Obligations.ClRepeatWritesARun := by
  intro i sym extra r bits v s hcounts hrow hfits hroom
  have hexec : exec i s = .next (runWritten sym (some extra) r v bits s) := by
    have hrepeat := repeatLengths_of_fits hcounts hfits hroom sym extra v bits
    obtain ⟨n, e, rfl, rfl, rfl, rfl, rfl, hlcnt, hprev⟩ | ⟨n, e, rfl, rfl, rfl, rfl, rfl, rfl⟩ |
      ⟨n, e, rfl, rfl, rfl, rfl, rfl, rfl⟩ := hrow
    · have hv : s.lens.getD (s.lcnt.toNat - 1) 0 = v := by rw [List.getD_eq_getElem?_getD, hprev, Option.getD_some]
      show execCl16 n e s = _
      rw [execCl16, if_neg hlcnt, hv, hrepeat]
    · exact hrepeat
    · exact hrepeat
  exact ⟨_, hexec, writeRun_length _ _ _ _, fun _ hj => writeRun_getElem? hj _ _ _⟩

/-- Settles O24: a single length is a run of one. -/
theorem clLenWritesOneLength : Obligations.ClLenWritesOneLength := by
  intro n v s hcounts hlt hroom
  have hlcnt : s.lcnt + 1 = BitVec.ofNat 9 (s.lcnt.toNat + 1) := by
    rw [BitVec.ofNat_add, BitVec.ofNat_toNat, BitVec.setWidth_eq]
    rfl
  rw [hlcnt]
  exact writeLengths_of_fits hcounts hlt hroom v.toNat none v n

/-- Settles O26: CL_16 reads no extra bits without a length to repeat; the other clauses are overruns. -/
theorem clRepeatErrors : Obligations.ClRepeatErrors := by
  intro n s
  refine ⟨fun e h0 => if_pos h0, fun e h0 hover => ?_, fun e hover => ?_, fun e hover => ?_⟩
  · exact (if_neg h0).trans (repeatLengths_of_overrun hover _ _ _ _ _)
  · exact repeatLengths_of_overrun hover _ _ _ _ _
  · exact repeatLengths_of_overrun hover _ _ _ _ _

/-! ## The block header -/

/-- Settles O18: with room for a record the three rows share their first part, and differ in the state they end in. -/
theorem bhdrOpensABlock : Obligations.BhdrOpensABlock := by
  intro f s hroom
  have hbegin (btype : BitVec 2) : beginBlock f btype s = .next (blockBegun f btype s) :=
    beginBlock_next.mpr ⟨hroom, rfl⟩
  refine ⟨?_, ?_, ?_⟩
  · exact andThen_next.mpr ⟨_, hbegin 0, rfl⟩
  · exact andThen_next.mpr ⟨_, hbegin 1, rfl⟩
  · exact andThen_next.mpr ⟨_, hbegin 2, rfl⟩

/-- Settles O19: the error entry stands behind the 3 bits, and without an open record it leaves the list alone. -/
theorem bhdrReservedRaisesInvalidBlockType : Obligations.BhdrReservedRaisesInvalidBlockType := by
  intro f s
  refine ⟨raise .invalidBlockType (readBhdr f 3 s), rfl, rfl, raise_st _ _, raise_errCode _ _, ?_, ?_, raise_out _ _,
    raise_outLen _ _, raise_blkCount _ _, fun hclosed => ⟨?_, ?_⟩⟩
  · rw [raise_errPos, bitOffset_readBhdr]
  · rw [bitOffset_raise, bitOffset_readBhdr]
  · simp [hclosed]
  · simp [raise_trace, hclosed]

/-! ## The stored block -/

/-- Settles O20: the check is that of the complement, and both outcomes start from LEN and NLEN read. -/
theorem sthdrChecksTheComplement : Obligations.SthdrChecksTheComplement := by
  intro len nlen s
  have hcheck : storedLenOk len nlen = true ↔ len ^^^ nlen = 0xFFFF#16 := beq_iff_eq
  refine ⟨fun hok => (if_pos (hcheck.mpr hok)).trans ?_, fun hbad => (if_neg (mt hcheck.mp hbad)).trans ?_⟩
  · rw [skipBytes_eq]
    rfl
  · rw [skipBytes_eq]
    rfl

/-- Settles O21: with room the byte is appended, and its item covers the bits up to the cursor. -/
theorem stbyteCopiesOneByte : Obligations.StbyteCopiesOneByte := by
  intro b s hout hitem
  have hread := skipBytes_eq 1 s
  refine andThen_next.mpr ⟨_, outAppend_of_room (by rw [hread]; exact hout) b, ?_⟩
  refine andThen_next.mpr
    ⟨_, emitItem_of_room (by rw [hread]; exact hitem) (by exact bitOffset_skipBytes_eq 1 s) _ _, ?_⟩
  rw [hread]
  rfl

/-! ## The dynamic block's header and tables -/

/-- Settles O22: the item is emitted before the table is built, so both outcomes of Build keep it. -/
theorem dynhdrBuildsTheCodeLengthTable : Obligations.DynhdrBuildsTheCodeLengthTable := by
  intro h d c cl s hroom
  have hitem := emitItem_of_room
    (s := { writeCounts h d c (advance (14 + 3 * cl.length) s) with cll := cllOf cl }) hroom
    (bitOffset_advance (14 + 3 * cl.length) s) (.dynamicHeader (hlitOf h) (hdistOf d) (hclenOf c) (cllOf cl))
    (bitOffset s)
  refine ⟨fun t ht => andThen_next.mpr ⟨_, hitem, ?_⟩, fun hnone => andThen_next.mpr ⟨_, hitem, ?_⟩⟩
  · rw [ht]
    rfl
  · rw [hnone]
    rfl

/-- A slice is empty exactly when each of its lengths is 0. -/
theorem sliceEmpty_iff {l : List Nat} : sliceEmpty l = true ↔ ∀ n ∈ l, n = 0 := by
  simp only [sliceEmpty, List.all_eq_true, beq_iff_eq]

/-- A slice with a length that is not 0 is not empty. -/
theorem sliceEmpty_eq_false {l : List Nat} (h : ∃ n ∈ l, n ≠ 0) : sliceEmpty l = false := by
  obtain ⟨n, hn, h0⟩ := h
  exact Bool.eq_false_iff.mpr fun he => h0 (sliceEmpty_iff.mp he n hn)

/-- Settles O27: each check of the rule is a branch of the step, and the branches stand in the rule's order. -/
theorem dynTablesChecksInOrder : Obligations.DynTablesChecksInOrder := by
  intro s
  refine ⟨fun hfew => if_pos hfew, fun hall => ⟨fun hempty => ?_, fun hll hdl => ?_⟩⟩
  · have hslices : (sliceEmpty (litLengths s) || sliceEmpty (distLengths s)) = true :=
      Bool.or_eq_true_iff.mpr (hempty.imp sliceEmpty_iff.mpr sliceEmpty_iff.mpr)
    rw [dynTables, if_neg hall, if_pos hslices]
  · have hslices : (sliceEmpty (litLengths s) || sliceEmpty (distLengths s)) = false :=
      Bool.or_eq_false_iff.mpr ⟨sliceEmpty_eq_false hll, sliceEmpty_eq_false hdl⟩
    rw [dynTables, if_neg hall, if_neg (Bool.eq_false_iff.mp hslices)]
    refine ⟨fun (hlt : build (litLengths s) = none) => ?_, fun lt (hlt : build (litLengths s) = some lt) =>
      ⟨fun (hdt : build (distLengths s) = none) => ?_, fun dt (hdt : build (distLengths s) = some dt) => ?_⟩⟩
    · rw [hlt]
    · rw [hlt, hdt]
    · rw [hlt, hdt]

end Sys2Proof.Machine

/-! # The symbols

What each row of the symbol loop answers: literals and end of block with room, the two halves of a MATCH and how they
fail, and the bytes Resolve gives (44_symbols.md R231 to R249). -/

namespace Sys2Proof.Machine

/-! ## Resolve -/

/-- Both branches of Resolve read the same place: before the output's end, `i` is below the distance already. -/
theorem resolve_getElem? {len dist i : Nat} {s : State} (hi : i < len) (hdist : dist ≤ s.outLen) :
    (resolve len dist s)[i]? = some (outRead s (s.outLen - dist + i % dist)) := by
  simp only [resolve, List.getElem?_map, List.getElem?_range hi, Option.map_some]
  split
  next hlt => rw [Nat.mod_eq_of_lt (by omega)]
  next => rfl

/-- Past the distance Resolve echoes the bytes it has just produced. -/
theorem resolve_getElem?_sub {len dist i : Nat} {s : State} (hge : dist ≤ i) (hi : i < len)
    (hdist : dist ≤ s.outLen) : (resolve len dist s)[i]? = (resolve len dist s)[i - dist]? := by
  rw [resolve_getElem? hi hdist, resolve_getElem? (by omega) hdist, Nat.mod_eq_sub_mod hge]

/-- Settles O50: byte `i` repeats with the distance, so bytes a distance apart are equal. -/
theorem resolveRepeatsWithItsDistance : Obligations.ResolveRepeatsWithItsDistance := by
  intro len dist s _ hdist
  exact ⟨resolve_length len dist s, fun _ hi => resolve_getElem? hi hdist,
    fun _ hge hi => resolve_getElem?_sub hge hi hdist⟩

/-! ## The copy byte by byte -/

/-- A list of writes leaves each of its bytes at its own address. -/
theorem readByteAt_writeBytesAt_of_inside {m : Memory} (h : m.wf) {a k : Nat} {bs : List Byte} (hk : k < bs.length) :
    some (readByteAt (writeBytesAt m a bs) (a + k)) = bs[k]? := by
  induction bs generalizing m a k with
  | nil => cases hk
  | cons b bs ih =>
    have hwf := writeByteAt_wf h a b
    cases k with
    | zero =>
      rw [writeBytesAt, readByteAt_writeBytesAt_of_outside hwf bs (by omega), readByteAt_writeByteAt h,
        if_pos (Nat.add_zero a)]
      rfl
    | succ k =>
      have hk' : k < bs.length := Nat.lt_of_succ_lt_succ hk
      rw [writeBytesAt, show a + (k + 1) = a + 1 + k by omega, ih hwf hk', List.getElem?_cons_succ]

/-- Bytes appended to the output read back in their order. -/
theorem OutGrown.outRead_appended {bs : List Byte} {s t : State} (hg : OutGrown bs s t) (hwf : s.out.wf) {k : Nat}
    (hk : k < bs.length) : some (outRead t (s.outLen + k)) = bs[k]? := by
  obtain ⟨hout, -⟩ := hg
  rw [outRead, hout, readByteAt_writeBytesAt_of_inside hwf hk]

/-- The output before the appended bytes stays. -/
theorem OutGrown.outRead_before {bs : List Byte} {s t : State} (hg : OutGrown bs s t) (hwf : s.out.wf) {a : Nat}
    (ha : a < s.outLen) : outRead t a = outRead s a := by
  obtain ⟨hout, -⟩ := hg
  rw [outRead, hout, readByteAt_writeBytesAt_of_outside hwf bs (by omega), outRead]

/-- Once Resolve's bytes are appended, each equals the byte a distance before it: a byte of the old output below the
distance, and one of the appended bytes past it. -/
theorem outRead_resolved {len dist k : Nat} {s t : State} (hwf : s.out.wf) (hdist : dist ≤ s.outLen)
    (hg : OutGrown (resolve len dist s) s t) (hk : k < len) :
    outRead t (s.outLen + k) = outRead t (s.outLen + k - dist) := by
  have hread {j : Nat} (hj : j < len) : some (outRead t (s.outLen + j)) = (resolve len dist s)[j]? :=
    hg.outRead_appended hwf (by rwa [resolve_length])
  apply Option.some.inj
  obtain hlt | hge := Nat.lt_or_ge k dist
  · rw [hread hk, resolve_getElem? hk hdist, Nat.mod_eq_of_lt hlt, hg.outRead_before hwf (by omega),
      Nat.sub_add_comm hdist]
  · rw [hread hk, resolve_getElem?_sub hge hk hdist, Nat.add_sub_assoc hge, hread (by omega)]

/-- A copy raises, or finds its distance inside the output and appends Resolve's bytes. -/
theorem copyElement_resolved {m : LenPart} {p : DistPart} {s t : State} (h : copyElement m p s = .next t) :
    t.st = .error ∨ distBase p.sym + p.extra ≤ s.outLen ∧
      OutGrown (resolve (lenBase m.sym + m.extra) (distBase p.sym + p.extra) s) s t := by
  simp only [copyElement] at h
  split at h
  next =>
    cases h
    exact .inl rfl
  next hdist =>
    obtain ⟨u, hu, h⟩ := andThen_next.mp h
    obtain ⟨rfl, -⟩ := outAppendAll_eq_next hu
    obtain ⟨-, rfl⟩ := emitItem_eq_next.mp h
    exact .inr ⟨Nat.le_of_not_lt hdist, rfl, rfl⟩

/-- Settles O51: a row that did not raise has appended Resolve's bytes. -/
theorem copyEqualsByteAtATimeCopy : Obligations.CopyEqualsByteAtATimeCopy := by
  intro i m p s t hwf hp h hst k hk
  obtain hx | hx := exec_of_distPart hp s
  · rw [hx] at h
    obtain herr | ⟨hdist, hg⟩ := copyElement_resolved h
    · exact absurd herr hst
    · exact outRead_resolved hwf hdist hg hk
  · rw [hx] at h
    cases h
    exact absurd rfl hst

/-! ## Literals, end of block and the symbols without a meaning -/

/-- Settles O28: with room the byte is appended, and its item covers the code bits. -/
theorem literalAppendsItsByte : Obligations.LiteralAppendsItsByte := by
  intro i n b s hi hout hitem
  rw [exec_of_litPart hi]
  refine andThen_next.mpr ⟨_, outAppend_of_room (by exact hout) b, ?_⟩
  exact emitItem_of_room (by exact hitem) (by exact bitOffset_advance n s) _ _

/-- With room the item of the block's end covers its code bits, and BLOCK_END is next. -/
theorem endOfBlockElement_of_room {s : State} (hitem : itemRoom s) (n : Nat) :
    endOfBlockElement n s = .next { setCursor (bitOffset s + n) s with
      trace := traceWithItem s .endOfBlock (bitOffset s) (bitOffset s + n), st := .blockEnd } :=
  andThen_next.mpr ⟨_, emitItem_of_room (by exact hitem) (by exact bitOffset_advance n s) _ _, rfl⟩

/-- Settles O29: both rows are the end of a block, the fixed one of 7 bits. -/
theorem eobEndsTheBlock : Obligations.EobEndsTheBlock :=
  fun n _ hitem => ⟨endOfBlockElement_of_room hitem 7, endOfBlockElement_of_room hitem n⟩

/-- Settles O30: each of the rows is the error entry behind its code. -/
theorem unusableSymbolsRaiseInvalidHuffmanCode : Obligations.UnusableSymbolsRaiseInvalidHuffmanCode := by
  intro i n s hrow
  have hexec : exec i s = .next (raise .invalidHuffmanCode (advance n s)) := by
    obtain ⟨rfl, rfl⟩ | ⟨rfl, rfl⟩ | ⟨sym, rfl⟩ | ⟨m, rfl, rfl⟩ | ⟨m, rfl, rfl⟩ | ⟨m, sym, rfl⟩ := hrow <;> rfl
  refine ⟨_, hexec, rfl, raise_st _ _, raise_errCode _ _, ?_, cursor_raise _ n s, raise_out _ _, raise_outLen _ _,
    fun hclosed => ?_⟩
  · rw [raise_errPos, bitOffset_advance]
  · simp [raise_trace, hclosed]

/-! ## The distance half -/

/-- A well-formed distance row is the distance half of its parts. -/
theorem exec_of_distPart_wellFormed {i : Instr} {m : LenPart} {p : DistPart} (hw : wellFormed i = true)
    (h : distPart? i = some (m, p)) (s : State) : exec i s = distanceElement m p s := by
  cases i with
  | distDyn m' n sym de =>
    cases h
    simp only [wellFormed, Bool.and_eq_true, decide_eq_true_eq] at hw
    obtain ⟨⟨-, hsym⟩, -⟩ := hw
    exact (if_pos hsym).symm
  | badDistDyn m' n sym =>
    cases h
    simp only [wellFormed, Bool.and_eq_true, decide_eq_true_eq] at hw
    obtain ⟨⟨-, hsym⟩, -⟩ := hw
    exact (if_neg (Nat.not_lt.mpr hsym)).symm
  | _ => cases h <;> rfl

/-- With room, a list of bytes is appended whole. -/
theorem outAppendAll_of_room {bs : List Byte} {len : Nat} {s : State} (hlen : bs.length = len) (hroom : outRoom len s) :
    outAppendAll bs s = .next { s with out := writeBytesAt s.out s.outLen bs, outLen := s.outLen + len } := by
  subst hlen
  suffices h : ∃ t, outAppendAll bs s = .next t by
    obtain ⟨t, ht⟩ := h
    rw [ht, (outAppendAll_eq_next ht).1]
  induction bs generalizing s with
  | nil => exact ⟨s, rfl⟩
  | cons b bs ih =>
    have hfirst : outAppend b s = .next (addBytes [b] s) :=
      outAppend_eq_next.mpr ⟨hroom 0 (Nat.succ_pos _), rfl⟩
    have hrest : outRoom bs.length (addBytes [b] s) := fun k hk => by
      have hk' := hroom (k + 1) (Nat.succ_lt_succ hk)
      rwa [Nat.add_comm k 1, ← Nat.add_assoc] at hk'
    obtain ⟨t, ht⟩ := ih hrest
    exact ⟨t, andThen_next.mpr ⟨_, hfirst, ht⟩⟩

/-- Where a copy leads whose item covers the bits from `start` to `stop`, the cursor standing at `stop`
(44_symbols.md R236, R245, R247). -/
abbrev matchCopied (m : LenPart) (p : DistPart) (start stop : Nat) (s : State) : State :=
  let len := lenBase m.sym + m.extra
  let dist := distBase p.sym + p.extra
  { setCursor stop s with
    outLen := s.outLen + len, out := writeBytesAt s.out s.outLen (resolve len dist s)
    trace := traceWithItem s
      (.backReference len dist (resolve len dist s) m.sym m.extra p.sym p.extra s.outLen) start stop }

/-- With the distance inside the output and room, a distance half copies. -/
theorem distanceElement_of_room {m : LenPart} {p : DistPart} {s : State} (hsym : p.sym < 30)
    (hdist : distBase p.sym + p.extra ≤ s.outLen) (hroom : outRoom (lenBase m.sym + m.extra) s) (hitem : itemRoom s) :
    distanceElement m p s =
      .next (matchCopied m p (bitOffset s - m.bits) (bitOffset s + (p.codeBits + distExtra p.sym)) s) := by
  refine (if_pos hsym).trans ((if_neg (Nat.not_lt.mpr hdist)).trans (andThen_next.mpr ?_))
  exact ⟨_, outAppendAll_of_room (resolve_length _ _ _) (by exact hroom),
    emitItem_of_room (by exact hitem) (by exact bitOffset_advance _ s) _ _⟩

/-- A distance past the output raises behind the extra bits. -/
theorem distanceElement_of_past {m : LenPart} {p : DistPart} {s : State} (hsym : p.sym < 30)
    (hdist : s.outLen < distBase p.sym + p.extra) :
    distanceElement m p s =
      .next (raise .invalidBackReference (setCursor (bitOffset s + (p.codeBits + distExtra p.sym)) s)) :=
  (if_pos hsym).trans (if_pos hdist)

/-- A distance symbol without a meaning raises behind its code. -/
theorem distanceElement_of_bad {m : LenPart} {p : DistPart} {s : State} (hsym : 30 ≤ p.sym) :
    distanceElement m p s = .next (raise .invalidHuffmanCode (setCursor (bitOffset s + p.codeBits) s)) :=
  if_neg (Nat.not_lt.mpr hsym)

/-- Settles O31: the tables evaluated, and a well-formed row is a distance half that copies. -/
theorem distanceCopiesFromTheOutput : Obligations.DistanceCopiesFromTheOutput := by
  refine ⟨by decide, fun i m p s hw hp hsym hdist hroom hitem => ?_⟩
  rw [exec_of_distPart_wellFormed hw hp, distanceElement_of_room hsym hdist hroom hitem]

/-- Settles O32: a well-formed row is a distance half whose guard fails. -/
theorem distancePastTheOutputRaises : Obligations.DistancePastTheOutputRaises := by
  intro i m p s hw hp hsym hdist
  rw [exec_of_distPart_wellFormed hw hp, distanceElement_of_past hsym hdist]

/-! ## The length half -/

/-- A length row's size is that of its length half. -/
theorem elementBits_of_lenPart {i : Instr} {m : LenPart} (h : lenPart? i = some m) : elementBits i = m.bits := by
  cases i <;> cases h <;> rfl

theorem lenPart_bhdrInstr (f : Bool) (btype : Nat) : lenPart? (bhdrInstr f btype) = none := by
  unfold bhdrInstr
  split <;> rfl

theorem lenPart_clInstr {n sym e : Nat} {i : Instr} (h : clInstr n sym e = some i) : lenPart? i = none := by
  unfold clInstr at h
  split_ifs at h <;> cases h <;> rfl

theorem lenPart_fixedDistInstr (m : LenPart) (sym e : Nat) : lenPart? (fixedDistInstr m sym e) = none := by
  unfold fixedDistInstr
  split <;> rfl

theorem lenPart_dynDistInstr (m : LenPart) (n sym e : Nat) : lenPart? (dynDistInstr m n sym e) = none := by
  unfold dynDistInstr
  split <;> rfl

/-- Only the two literal/length contexts decode a length row. -/
theorem symbol_ctx_of_lenPart {ctx : Ctx} {bs : Bits} {i : Instr} {n : Nat} {m : LenPart}
    (hd : decode ctx bs = .elem i n) (hm : lenPart? i = some m) : ctx = .symFixed ∨ ∃ t, ctx = .symDyn t := by
  have hne : lenPart? i ≠ none := by simp [hm]
  cases ctx with
  | symFixed => exact .inl rfl
  | symDyn t => exact .inr ⟨t, rfl⟩
  | zhdr pad =>
    obtain ⟨-, c, f, rfl⟩ := decodeZhdr_elem hd
    exact absurd rfl hne
  | bhdr =>
    obtain ⟨-, f, btype, rfl⟩ := decodeBhdr_elem hd
    exact absurd (lenPart_bhdrInstr f btype) hne
  | sthdr pad =>
    obtain ⟨-, len, nlen, rfl⟩ := decodeSthdr_elem hd
    exact absurd rfl hne
  | stbyte pad =>
    obtain ⟨-, b, rfl⟩ := decodeStbyte_elem hd
    exact absurd rfl hne
  | dynhdr =>
    obtain ⟨h, d, c, cl, rfl, -⟩ := decodeDynhdr_elem hd
    exact absurd rfl hne
  | clEntry t p =>
    simp only [decode] at hd
    obtain ⟨sym, k, e, -, hi, -⟩ := finishCoded_elem hd
    exact absurd (lenPart_clInstr hi) hne
  | distFixed m' =>
    simp only [decode] at hd
    obtain ⟨sym, k, e, -, hi, -⟩ := finishCoded_elem hd
    cases hi
    exact absurd (lenPart_fixedDistInstr m' sym e) hne
  | distDyn t m' =>
    simp only [decode] at hd
    obtain ⟨sym, k, e, -, hi, -⟩ := finishCoded_elem hd
    cases hi
    exact absurd (lenPart_dynDistInstr m' k sym e) hne
  | ztrl pad =>
    obtain ⟨-, a, rfl⟩ := decodeZtrl_elem hd
    exact absurd rfl hne

/-- A length row is decoded from the bits of its length half. -/
theorem decode_bits_of_lenPart {ctx : Ctx} {bs : Bits} {i : Instr} {n : Nat} {m : LenPart}
    (hd : decode ctx bs = .elem i n) (hm : lenPart? i = some m) : n = m.bits := by
  rw [← rowBits_of_lenPart State.reset hm]
  obtain rfl | ⟨t, rfl⟩ := symbol_ctx_of_lenPart hd hm
  · simp only [decode] at hd
    obtain ⟨sym, k, e, ⟨f, hf, rfl, rfl⟩, hi, hn, -⟩ := finishCoded_elem hd
    cases hi
    obtain ⟨hlt, hk⟩ := fixLit_len hf
    rw [hn, hk, rowBits_fixedSymInstr _ e hlt]
  · simp only [decode] at hd
    obtain ⟨sym, k, e, -, hi, hn, -⟩ := finishCoded_elem hd
    cases hi
    rw [hn, rowBits_dynSymInstr]

section
variable {i : Instr} {m : LenPart} {s : State} (hm : lenPart? i = some m)
include hm

/-- A length row reads its distance half behind its own bits and goes on with it. -/
theorem exec_lenRow_of_coded {d k de : Nat}
    (hc : readCoded (distTableOf i s) distExtra (stream (setCursor (bitOffset s + m.bits) s)) = .coded d k de) :
    exec i s = distanceElement m ⟨d, k, de⟩ (advance m.bits s) := by
  have hat : distanceAt (distTableOf i s) (advance m.bits s) = .coded d k de := hc
  simp only [exec_of_lenPart hm, matchElement, hat]

/-- Where the data ends inside the distance half, a length row raises behind what was read of it. -/
theorem exec_lenRow_of_endOfData {k : Nat}
    (hc : readCoded (distTableOf i s) distExtra (stream (setCursor (bitOffset s + m.bits) s)) = .endOfData k) :
    exec i s = .next (raise .unexpectedEndOfData (setCursor (bitOffset s + m.bits + k) s)) := by
  have hat : distanceAt (distTableOf i s) (advance m.bits s) = .endOfData k := hc
  simp only [exec_of_lenPart hm, matchElement, hat, advance_advance]
  rw [advance, Nat.add_assoc]

end

/-- Settles O33: the bits are those of the row, and the distance half behind them copies; its item starts at the length
code. -/
theorem lengthRunsTheWholeMatch : Obligations.LengthRunsTheWholeMatch := by
  refine ⟨fun ctx bs i n m hd hm => ?_, fun i m d k de s hm hc hsym hdist hroom hitem => ?_⟩
  · have hn := decode_bits_of_lenPart hd hm
    exact ⟨hn, hn.trans (elementBits_of_lenPart hm).symm⟩
  · rw [exec_lenRow_of_coded hm hc, distanceElement_of_room (by exact hsym) (by exact hdist) (by exact hroom)
      (by exact hitem), bitOffset_advance, Nat.add_sub_cancel]
    rfl

/-- Settles O34: the first two failures are those of the distance half, which stands behind the length half. -/
theorem matchErrorsKeepTheBitsRead : Obligations.MatchErrorsKeepTheBitsRead := by
  intro i m s hm
  refine ⟨fun d k de hc hsym => ?_, fun d k de hc hsym hdist => ?_, fun k hc => exec_lenRow_of_endOfData hm hc⟩
  · rw [exec_lenRow_of_coded hm hc, distanceElement_of_bad hsym, bitOffset_advance]
    rfl
  · rw [exec_lenRow_of_coded hm hc, distanceElement_of_past hsym hdist, bitOffset_advance]
    rfl

end Sys2Proof.Machine

/-! # The invariant of the output

`OutInv` says that OUT is what the records contribute, and something of each record at its place. A step appends a
record that contributes nothing, adds an item with its bytes to the open record, or closes it. -/

namespace Sys2Proof.Machine

/-! ## The bytes of OUT -/

@[simp] theorem outBytes_length (s : State) : (outBytes s).length = s.outLen := readBytesAt_length _ _ _

theorem SameOut.outBytes {s t : State} (h : SameOut s t) : outBytes t = outBytes s := by
  unfold Machine.outBytes
  rw [h.1, h.2]

/-- Bytes appended to the output stand behind it. -/
theorem OutGrown.outBytes {bs : List Byte} {s t : State} (hg : OutGrown bs s t) (hwf : s.out.wf) :
    outBytes t = outBytes s ++ bs := by
  have hlen : t.outLen = s.outLen + bs.length := hg.2
  unfold Machine.outBytes
  rw [hlen, readBytesAt_add, Nat.zero_add]
  congr 1
  · refine List.ext_getElem (by simp) fun a ha _ => ?_
    rw [readBytesAt_getElem, readBytesAt_getElem, Nat.zero_add]
    exact hg.outRead_before hwf (by simpa using ha)
  · refine List.ext_getElem (by simp) fun k hk hk' => ?_
    rw [readBytesAt_getElem]
    exact Option.some.inj ((hg.outRead_appended hwf hk').trans (List.getElem?_eq_getElem hk'))

/-! ## One record -/

/-- A statement of each element of a list and the elements before it, where the list has one more. -/
theorem forall_getElem?_concat {α : Type} {P : List α → α → Prop} {l : List α} {a : α} :
    (∀ (i : Nat) (x : α), (l ++ [a])[i]? = some x → P ((l ++ [a]).take i) x) ↔
      (∀ (i : Nat) (x : α), l[i]? = some x → P (l.take i) x) ∧ P l a := by
  have hbefore (i : Nat) (hi : i < l.length) : (l ++ [a])[i]? = l[i]? ∧ (l ++ [a]).take i = l.take i :=
    ⟨List.getElem?_append_left hi, List.take_append_of_le_length (Nat.le_of_lt hi)⟩
  constructor
  · intro h
    refine ⟨fun i x hx => ?_, ?_⟩
    · obtain ⟨hget, htake⟩ := hbefore i (List.getElem?_eq_some_iff.mp hx).1
      exact htake ▸ h i x (hget.trans hx)
    · simpa using h l.length a (by simp)
  · rintro ⟨hl, ha⟩ i x hx
    by_cases hi : i < l.length
    · obtain ⟨hget, htake⟩ := hbefore i hi
      rw [htake]
      exact hl i x (hget ▸ hx)
    · have hle := (List.getElem?_eq_some_iff.mp hx).1
      rw [List.length_append, List.length_singleton] at hle
      obtain rfl : i = l.length := by omega
      obtain rfl : a = x := by simpa using hx
      simpa using ha

/-- What `OutInv` says of a record that begins at `start`. -/
structure RecordOut (start : Nat) (r : BlockRecord) : Prop where
  start : r.outStart = start
  slice : ∀ c, r.closed = some c →
    c.decodedBytes = itemsBytes r.items ∧ c.outEnd = r.outStart + (itemsBytes r.items).length
  outIndexes : ∀ (j : Nat) (it : Item), r.items[j]? = some it → ∀ k, itemOutIndex it.kind = some k →
    k = r.outStart + (itemsBytes (r.items.take j)).length

/-- What `OutInv` says of the records: each begins where those before it end. -/
def RecordsOut (l : List BlockRecord) : Prop :=
  ∀ (i : Nat) (r : BlockRecord), l[i]? = some r → RecordOut (recordsBytes (l.take i)).length r

theorem outInv_iff {s : State} : OutInv s ↔ outBytes s = recordsBytes s.trace ∧ RecordsOut s.trace := by
  constructor
  · intro h
    refine ⟨h.composition, fun i r hr => ?_⟩
    have hmem := List.mem_of_getElem? hr
    exact ⟨h.starts i r hr, h.slices r hmem, fun j it hit k => h.outIndexes r hmem j it k hit⟩
  · rintro ⟨hbytes, hrec⟩
    have hmem {r : BlockRecord} (hr : r ∈ s.trace) : ∃ n, RecordOut n r :=
      have ⟨i, hi⟩ := List.getElem?_of_mem hr
      ⟨_, hrec i r hi⟩
    exact
      { composition := hbytes
        starts := fun i r hr => (hrec i r hr).start
        slices := fun r hr => (hmem hr).elim fun _ h => h.slice
        outIndexes := fun r hr j it k hit => (hmem hr).elim fun _ h => h.outIndexes j it hit k }

theorem recordsOut_concat {l : List BlockRecord} {r : BlockRecord} :
    RecordsOut (l ++ [r]) ↔ RecordsOut l ∧ RecordOut (recordsBytes l).length r :=
  forall_getElem?_concat (P := fun before r => RecordOut (recordsBytes before).length r)

@[simp] theorem recordsBytes_concat (l : List BlockRecord) (r : BlockRecord) :
    recordsBytes (l ++ [r]) = recordsBytes l ++ itemsBytes r.items := by
  simp [recordsBytes]

theorem OutInv.congr {s t : State} (h : OutInv s) (hout : SameOut s t) (htrace : t.trace = s.trace) : OutInv t := by
  rw [outInv_iff] at h ⊢
  rwa [hout.outBytes, htrace]

/-! ## A record more -/

/-- A record that contributes nothing begins at the end of the output. -/
theorem OutInv.append {s t : State} {r : BlockRecord} (h : OutInv s) (htrace : t.trace = s.trace ++ [r])
    (hbytes : itemsBytes r.items = []) (hr : RecordOut s.outLen r) (hout : SameOut s t := by simp [SameOut]) :
    OutInv t := by
  obtain ⟨hcomp, hrec⟩ := outInv_iff.mp h
  have hlen : s.outLen = (recordsBytes s.trace).length := by rw [← hcomp, outBytes_length]
  rw [outInv_iff, htrace, recordsOut_concat]
  exact ⟨by rw [hout.outBytes, hcomp, recordsBytes_concat, hbytes, List.append_nil], hrec, hlen ▸ hr⟩

theorem recordOut_openedRecord (s : State) (k : BlockKind) (f : Bool) : RecordOut s.outLen (openedRecord s k f) where
  start := rfl
  slice _ hc := nomatch hc
  outIndexes _ _ hit := nomatch hit

/-- A pseudo-block's item neither contributes bytes nor names a place in OUT. -/
theorem recordOut_pseudoRecord {i : Nat} {kind : BlockKind} {item : ItemKind} {a b n : Nat}
    (hbytes : itemBytes item = []) (hindex : itemOutIndex item = none) :
    RecordOut n (pseudoRecord i kind item a b n) where
  start := rfl
  slice c hc := by
    cases hc
    simp [itemsBytes, pseudoRecord, hbytes]
  outIndexes j it hit k hk := by
    obtain rfl : it = ⟨item, a, b, i, 0⟩ := by simpa [pseudoRecord] using List.mem_of_getElem? hit
    simp [hindex] at hk

/-! ## The last record changed -/

theorem modify_concat {l : List BlockRecord} {r : BlockRecord} {n : Nat} (hn : (l ++ [r]).length = n)
    (f : BlockRecord → BlockRecord) : (l ++ [r]).modify (n - 1) f = l ++ [f r] := by
  subst hn
  induction l with
  | nil => rfl
  | cons q l ih => simpa [List.modify_succ_cons] using ih

/-- The last record of a list and its part of the output, which reaches the end. -/
theorem OutInv.lastRecord {s : State} {l : List BlockRecord} {r : BlockRecord} (h : OutInv s)
    (hs : s.trace = l ++ [r]) :
    outBytes s = recordsBytes l ++ itemsBytes r.items ∧ RecordsOut l ∧ RecordOut (recordsBytes l).length r ∧
      s.outLen = r.outStart + (itemsBytes r.items).length := by
  obtain ⟨hcomp, hrec⟩ := outInv_iff.mp h
  rw [hs, recordsBytes_concat] at hcomp
  rw [hs, recordsOut_concat] at hrec
  refine ⟨hcomp, hrec.1, hrec.2, ?_⟩
  rw [hrec.2.start, ← outBytes_length, hcomp, List.length_append]

theorem outInv_of_last {t : State} {l : List BlockRecord} {q : BlockRecord} (ht : t.trace = l ++ [q])
    (hbytes : outBytes t = recordsBytes l ++ itemsBytes q.items) (hl : RecordsOut l)
    (hq : RecordOut (recordsBytes l).length q) : OutInv t := by
  rw [outInv_iff, ht, recordsBytes_concat, recordsOut_concat]
  exact ⟨hbytes, hl, hq⟩

/-- An item with its bytes in a record that is still open. -/
theorem RecordOut.addItem {n m : Nat} {r : BlockRecord} {k : ItemKind} {a b : Nat} (h : RecordOut n r)
    (hopen : r.closed = none) (hm : m = r.outStart + (itemsBytes r.items).length)
    (hindex : ∀ i, itemOutIndex k = some i → i = m) : RecordOut n (addItem k a b r) where
  start := h.start
  slice _ hc := nomatch hopen.symm.trans hc
  outIndexes := by
    refine (forall_getElem?_concat (P := fun before it => ∀ i, itemOutIndex it.kind = some i →
      i = r.outStart + (itemsBytes before).length)).mpr ⟨h.outIndexes, fun i hi => ?_⟩
    exact (hindex i hi).trans hm

@[simp] theorem itemsBytes_addItem (k : ItemKind) (a b : Nat) (r : BlockRecord) :
    itemsBytes (addItem k a b r).items = itemsBytes r.items ++ itemBytes k := by
  simp [itemsBytes, addItem]

/-- While BLK_OPEN is set the list ends in an open record. -/
theorem TraceInv.exists_open {s : State} (h : TraceInv s) (hinv : Inv s) (hopen : s.blkOpen = true) :
    ∃ l r, s.trace = l ++ [r] ∧ r.closed = none := by
  have hlen := hinv.trace_length
  have hpos : 0 < s.blkCount := by
    have hst := hinv.open_iff ▸ hopen
    refine hinv.byState.started ?_ ?_
    · unfold busy
      split <;> simp_all [blockIsOpen]
    · intro hz
      simp [hz, blockIsOpen] at hst
  obtain hnil | ⟨l, r, hs⟩ := List.eq_nil_or_concat' s.trace
  · rw [hnil, List.length_nil] at hlen
    omega
  · rw [hs, List.length_append, List.length_singleton] at hlen
    refine ⟨l, r, hs, ?_⟩
    exact (h.open_last l.length r (by simp [hs])).mpr ⟨hopen, hlen⟩

/-- An item in the open record, whose bytes are appended to the output (10_state.md R42, 45_engine.md R278). -/
theorem OutInv.addItem {s t : State} {k : ItemKind} (h : OutInv s) (hinv : Inv s) (htrace : TraceInv s)
    (hopen : s.blkOpen = true) (ht : ∃ a b, t.trace = s.trace.modify (s.blkCount - 1) (addItem k a b))
    (hout : OutGrown (itemBytes k) s t) (hindex : ∀ i, itemOutIndex k = some i → i = s.outLen) : OutInv t := by
  obtain ⟨l, r, hs, hclosed⟩ := htrace.exists_open hinv hopen
  obtain ⟨hbytes, hl, hr, hend⟩ := h.lastRecord hs
  obtain ⟨a, b, ht⟩ := ht
  have hlen := hinv.trace_length
  rw [hs] at hlen ht
  rw [modify_concat hlen] at ht
  refine outInv_of_last ht ?_ hl (hr.addItem hclosed hend hindex)
  rw [hout.outBytes hinv.out_wf, hbytes, itemsBytes_addItem, List.append_assoc]

/-- The last record keeps its items, and its closing fields stay or are those of a close at the end of the output
(45_engine.md R268, 60_exceptions.md R300). -/
theorem OutInv.changeLast {s t : State} {f : BlockRecord → BlockRecord} {b : Nat} (h : OutInv s)
    (hlen : s.trace.length = s.blkCount) (ht : t.trace = s.trace.modify (s.blkCount - 1) f) (hout : SameOut s t)
    (hf : ∀ r, (f r).items = r.items ∧ (f r).outStart = r.outStart ∧
      ((f r).closed = r.closed ∨ (f r).closed = some (closing s.out r.startBit b r.outStart s.outLen))) : OutInv t := by
  obtain hnil | ⟨l, r, hs⟩ := List.eq_nil_or_concat' s.trace
  · exact h.congr hout (by rw [ht, hnil, List.modify_nil])
  obtain ⟨hbytes, hl, hr, hend⟩ := h.lastRecord hs
  obtain ⟨hitems, hstart, hclosed⟩ := hf r
  have hslice : readBytesAt s.out r.outStart (s.outLen - r.outStart) = itemsBytes r.items := by
    have hsplit := hbytes
    rw [outBytes, hend, readBytesAt_add, Nat.zero_add] at hsplit
    rw [hend, Nat.add_sub_cancel_left]
    exact (List.append_inj hsplit (by simp [hr.start])).2
  rw [hs] at hlen ht
  rw [modify_concat hlen] at ht
  refine outInv_of_last ht (by rw [hout.outBytes, hbytes, hitems]) hl
    ⟨hstart.trans hr.start, fun c hc => ?_, by rw [hitems, hstart]; exact hr.outIndexes⟩
  rw [hitems, hstart]
  obtain hkept | hnew := hclosed
  · exact hr.slice c (hkept ▸ hc)
  · obtain rfl := Option.some.inj (hnew.symm.trans hc)
    exact ⟨hslice, hend⟩

theorem OutInv.errorEntry {s : State} {e : ErrorCode} (h : OutInv s) (hlen : s.trace.length = s.blkCount) :
    OutInv (raise e s) := by
  have hout : SameOut s (raise e s) := ⟨raise_out e s, raise_outLen e s⟩
  have ht := raise_trace e s
  split at ht
  · exact h.changeLast hlen ht hout fun r => ⟨rfl, rfl, .inr rfl⟩
  · exact h.congr hout ht

/-! ## Every step -/

theorem OutInv.lengthsRead {s : State} (len nlen : BitVec 16) (h : OutInv s) (hlen : s.trace.length = s.blkCount) :
    OutInv (lengthsRead len nlen s) :=
  h.changeLast (b := 0) (f := fun r => { r with storedLen := some len, storedNLen := some nlen }) hlen
    (by simp [modifyRecord]) (by simp [SameOut]) fun r => ⟨rfl, rfl, .inl rfl⟩

theorem outInv_coreMove {s t : State} (hinv : Inv s) (htrace : TraceInv s) (h : OutInv s) (hm : CoreMove s t) :
    OutInv t := by
  have hlen := hinv.trace_length
  have hopen := hinv.open_iff
  cases hm with
  | fail _ _ hu =>
    refine (h.congr ⟨hu.out, hu.outLen⟩ hu.trace).errorEntry ?_
    rw [hu.trace, hu.blkCount, hlen]
  | zhdr cmf flg => exact h.append rfl rfl (recordOut_pseudoRecord rfl rfl)
  | ztrl a => exact h.append rfl rfl (recordOut_pseudoRecord rfl rfl)
  | stored f | fixed f | dynamic f => exact h.append rfl rfl (recordOut_openedRecord s _ f)
  | lengths len nlen => exact (h.lengthsRead len nlen hlen).congr ⟨rfl, rfl⟩ rfl
  | badLengths len nlen => exact (h.lengthsRead len nlen hlen).errorEntry (hinv.base.lengthsRead len nlen).trace_length
  | storedByte b hst =>
    refine h.addItem (k := .literal b s.outLen) hinv htrace (by rw [hopen, hst]; rfl) ?_ ?_ ?_
    · simp only [modifyRecord, skipBytes_trace, skipBytes_blkCount]
      exact ⟨_, _, rfl⟩
    · simp [OutGrown, itemBytes]
    · exact fun i hi => (Option.some.inj hi).symm
  | dynHeader hl hd hc cl tab hst =>
    exact h.addItem hinv htrace (by rw [hopen, hst]; rfl) ⟨_, _, rfl⟩ ⟨rfl, rfl⟩ fun i hi => nomatch hi
  | badDynHeader hl hd hc cl hst =>
    have hitem : OutInv (dynHeaderRead hl hd hc cl s) :=
      h.addItem hinv htrace (by rw [hopen, hst]; rfl) ⟨_, _, rfl⟩ ⟨rfl, rfl⟩ fun i hi => nomatch hi
    exact hitem.errorEntry ((List.length_modify _ _ _).trans hlen)
  | run n sym extra r v hst =>
    refine h.addItem (k := .dynamicCodeLengthEntry sym extra r v.toNat s.lcnt.toNat) hinv htrace
      (by rw [hopen, hst]; rfl) ?_ ?_ fun i hi => nomatch hi
    · rw [lensNext_trace]
      exact ⟨_, _, rfl⟩
    · simp [OutGrown, itemBytes, writeBytesAt]
  | tables lt dt hst => exact h.congr ⟨rfl, rfl⟩ rfl
  | literal n b hst =>
    exact h.addItem hinv htrace (by rw [hopen, hst]; rfl) ⟨_, _, rfl⟩ ⟨rfl, rfl⟩ fun i hi => (Option.some.inj hi).symm
  | copy n len dist bs lsym lextra dsym dextra hst =>
    exact h.addItem hinv htrace (by rw [hopen, hst]; rfl) ⟨_, _, rfl⟩ ⟨rfl, rfl⟩ fun i hi => (Option.some.inj hi).symm
  | endOfBlock n hst =>
    exact h.addItem hinv htrace (by rw [hopen, hst]; rfl) ⟨_, _, rfl⟩ ⟨rfl, rfl⟩ fun i hi => nomatch hi
  | blockEnd hst => exact h.changeLast hlen rfl ⟨rfl, rfl⟩ fun r => ⟨rfl, rfl, .inr rfl⟩

theorem outInv_writeHostReg {s : State} (h : OutInv s) (i v : Nat) : OutInv (writeHostReg i v s) := by
  obtain hw | hw | ⟨n, -, -, hw⟩ | hw := writeHostReg_cases i v s <;> rw [hw]
  · exact (fresh_hostReset s).outInv
  · exact (fresh_startDecode s).outInv
  · exact h.congr ⟨rfl, rfl⟩ rfl
  · exact h

/-- Settles O58: the moves of the core are `outInv_coreMove`; of the host's, RESET and START empty OUT and the list, and
no other touches them. -/
theorem everyStepKeepsTheOutputInvariant : Obligations.EveryStepKeepsTheOutputInvariant := by
  intro s t hinv htrace hout h
  have hhost (ms : List HostMove) : OutInv { s with host := ms } := hout.congr ⟨rfl, rfl⟩ rfl
  obtain ⟨ms, hm | ⟨a, b, -, rfl⟩ | ⟨i, v, rfl⟩ | rfl⟩ := step_cases h
  · exact outInv_coreMove (hinv.withHost ms) { htrace with } (hhost ms) hm
  · exact hout.congr ⟨rfl, rfl⟩ rfl
  · exact outInv_writeHostReg (hhost ms) i v
  · exact hhost ms

end Sys2Proof.Machine

/-! # The step and its progress

The host's writes of IN and of CTRL, the element at the cursor, and the steps without one. A core step is stopped by a
capacity alone, and each one takes a decode nearer to its end. -/

namespace Sys2Proof.Machine

/-! ## The moves of the host -/

/-- Settles O9: a write of IN tests BUSY and the bound P_MAX_IN, and a canonical memory reads what is written. -/
theorem hostWritesOneByteOfIn : Obligations.HostWritesOneByteOfIn := by
  intro s a b ms hwf hhost
  have hstep : step s = writeInByte a b { s with host := ms } := by simp only [step, engineStep, hhost, hostMove]
  have hbusy' : busy { s with host := ms } = busy s := rfl
  rw [hstep, writeInByte, hbusy']
  refine ⟨fun hbusy => if_pos hbusy, fun hbusy hcap => ?_, fun hbusy hcap => ?_⟩
  · rw [if_neg (by simp [hbusy]), if_pos hcap]
  · refine ⟨writeByteAt s.inMem a b, ?_, writeByteAt_wf hwf a b, fun k => readByteAt_writeByteAt hwf a k b⟩
    rw [if_neg (by simp [hbusy]), if_neg (by simp [hcap])]

/-- START outside BUSY (10_state.md R29). -/
theorem writeCtrl_start {v : Nat} {s : State} (hstart : v.testBit 0 = true) (hreset : v.testBit 1 = false)
    (hbusy : busy s = false) : writeCtrl v s = startDecode s := by
  simp [writeCtrl, hstart, hreset, hbusy]

/-- Settles O2: CTRL is wide enough to carry bit 0, and the fields are those `startDecode` writes. -/
theorem startBeginsAFreshDecode : Obligations.StartBeginsAFreshDecode := by
  intro s v ms hp hhost hstart hreset
  have hbit0 : (regValue { s with host := ms } v).testBit 0 = true :=
    (testBit_regValue fun w hw => Nat.lt_of_lt_of_le (by decide : 0 < 3) (three_le_regW hp hw)).trans hstart
  have hbit1 : (regValue { s with host := ms } v).testBit 1 = false := testBit_regValue_of_clear hreset
  rw [step_writeReg hhost, writeHostReg]
  constructor
  · intro (hbusy : busy { s with host := ms } = true)
    rw [writeCtrl_ignored hbit1 (.inr hbusy)]
  · intro (hbusy : busy { s with host := ms } = false)
    rw [writeCtrl_start hbit0 hbit1 hbusy]
    by_cases hlen : s.inLen = 0 <;> simp [startDecode, hlen, Nat.pos_iff_ne_zero]

/-! ## The moves of the core -/

/-- Settles O10: the core runs what it decodes. -/
theorem stepRunsTheDecodedElement : Obligations.StepRunsTheDecodedElement := by
  intro s ctx i n hhost hctx hd
  rw [step_of_host_nil hhost, coreStep_of_contextOf hctx, hd]
  rfl

/-- Outside BUSY the core has no step (45_engine.md R261). -/
theorem coreStep_of_not_busy {s : State} (h : busy s = false) : coreStep s = .fault .noStep := by
  cases hst : s.st with
  | idle | done | error => simp [coreStep, fetch, contextOf, hst]
  | _ => simp [busy, hst] at h

/-- Settles O11: DYN_TABLES and BLOCK_END are selected by ST alone, and the three other states are not BUSY. -/
theorem stepsThatConsumeNoElement : Obligations.StepsThatConsumeNoElement := by
  intro s hhost
  rw [step_of_host_nil hhost]
  refine ⟨fun hst => ?_, fun hst => ?_, fun hst => coreStep_of_not_busy ?_⟩
  · simp only [coreStep, hst]
  · simp only [coreStep, hst]
  · obtain hst | hst | hst := hst <;> simp [busy, hst]

/-- Settles O36: the writes are those of `closeRecord` without the partial flag, and of ST. -/
theorem blockEndClosesTheRecord : Obligations.BlockEndClosesTheRecord := fun _ => rfl

/-! ## What can stop the core -/

/-- The result is a next state with the parameters `p`, or a capacity stop; the latter not where all are unbounded
(70_reset_and_hazards.md R331). -/
def Proceeds (p : Params) (o : StepResult) : Prop :=
  (∃ t, o = .next t ∧ t.params = p) ∨ p ≠ .reference ∧ ∃ r, o = .fault r ∧ isCapacityStop r

theorem proceeds_next {p : Params} {t : State} (h : t.params = p) : Proceeds p (.next t) := .inl ⟨t, rfl, h⟩

theorem proceeds_raise {e : ErrorCode} {u : State} : Proceeds u.params (.next (raise e u)) :=
  proceeds_next (raise_params e u)

theorem Proceeds.andThen {p : Params} {o : StepResult} {f : State → StepResult} (ho : Proceeds p o)
    (hf : ∀ t, t.params = p → Proceeds p (f t)) : Proceeds p (andThen o f) := by
  obtain ⟨t, rfl, ht⟩ | ⟨hp, r, rfl, hr⟩ := ho
  · exact hf t ht
  · exact .inr ⟨hp, r, rfl, hr⟩

/-- An operation that stops only where a capacity is reached. -/
theorem proceeds_of_capacity {p : Params} {cap : Params → Option Nat} {n : Nat} {r : Fault} {o : StepResult}
    (hcap : cap .reference = none) (hr : isCapacityStop r) (ho : Params.reached (cap p) n = false → Proceeds p o) :
    Proceeds p (if Params.reached (cap p) n then .fault r else o) := by
  cases hreached : Params.reached (cap p) n with
  | false => exact ho hreached
  | true =>
    refine .inr ⟨fun hp => ?_, r, rfl, hr⟩
    rw [hp, hcap] at hreached
    cases hreached

section
variable (s : State)

theorem proceeds_outAppend (b : Byte) : Proceeds s.params (outAppend b s) :=
  proceeds_of_capacity (cap := Params.maxOut) rfl trivial fun _ => proceeds_next rfl

theorem proceeds_outAppendAll (bs : List Byte) : Proceeds s.params (outAppendAll bs s) := by
  induction bs generalizing s with
  | nil => exact proceeds_next rfl
  | cons b bs ih => exact (proceeds_outAppend s b).andThen fun t ht => ht ▸ ih t

theorem proceeds_emitItem (k : ItemKind) (a : Nat) : Proceeds s.params (emitItem k a s) :=
  proceeds_of_capacity (cap := Params.maxItems) rfl trivial fun _ => proceeds_next rfl

theorem proceeds_appendRecord (r : BlockRecord) : Proceeds s.params (appendRecord r s) := by
  refine proceeds_of_capacity (cap := Params.maxBlocks) rfl trivial fun _ => ?_
  by_cases hr : r.items = []
  · rw [if_neg (by simp [hr])]
    exact proceeds_next rfl
  · simp only [ne_eq, hr, not_false_eq_true, true_and]
    exact proceeds_of_capacity (cap := Params.maxItems) rfl trivial fun _ => proceeds_next rfl

/-! ### The rows -/

theorem proceeds_beginBlock (f : Bool) (btype : BitVec 2) : Proceeds s.params (beginBlock f btype s) :=
  (proceeds_appendRecord _ _).andThen fun _ ht => proceeds_next ht

theorem proceeds_execZhdr (cmf flg : Byte) : Proceeds s.params (execZhdr cmf flg s) := by
  rw [← skipBytes_params 2 s]
  exact (proceeds_appendRecord _ _).andThen fun _ ht => proceeds_next ht

theorem proceeds_execZtrl (a : BitVec 32) : Proceeds s.params (execZtrl a s) := by
  rw [← skipBytes_params 4 s]
  exact (proceeds_appendRecord _ _).andThen fun _ ht => proceeds_next ht

theorem proceeds_execSthdr (len nlen : BitVec 16) : Proceeds s.params (execSthdr len nlen s) := by
  rw [← skipBytes_params 4 s]
  unfold execSthdr
  split
  · exact proceeds_next rfl
  · exact proceeds_raise

theorem proceeds_execStbyte (b : Byte) : Proceeds s.params (execStbyte b s) := by
  rw [← skipBytes_params 1 s]
  refine (proceeds_outAppend _ b).andThen fun t ht => ?_
  rw [← ht]
  exact (proceeds_emitItem t _ _).andThen fun _ hu => proceeds_next hu

theorem proceeds_execDynhdr (h d : BitVec 5) (c : BitVec 4) (cl : List (BitVec 3)) :
    Proceeds s.params (execDynhdr h d c cl s) := by
  refine Proceeds.andThen (proceeds_emitItem _ _ _) fun t ht => ?_
  split
  · exact ht ▸ proceeds_raise
  · exact proceeds_next ht

theorem proceeds_writeLengths (sym : Nat) (extra : Option Nat) (r : Nat) (v : BitVec 4) (a : Nat) :
    Proceeds s.params (writeLengths sym extra r v a s) :=
  Proceeds.andThen (proceeds_emitItem _ _ _) fun t ht => proceeds_next ((lensNext_params t).trans ht)

theorem proceeds_repeatLengths (sym extra r : Nat) (v : BitVec 4) (a : Nat) :
    Proceeds s.params (repeatLengths sym extra r v a s) := by
  unfold repeatLengths
  split
  · exact proceeds_raise
  · exact proceeds_writeLengths s _ _ _ _ _

theorem proceeds_execCl16 (n : Nat) (e : BitVec 2) : Proceeds s.params (execCl16 n e s) := by
  unfold execCl16
  split
  · exact proceeds_raise (u := advance n s)
  · exact proceeds_repeatLengths (advance (n + 2) s) _ _ _ _ _

theorem proceeds_literalElement (n : Nat) (b : Byte) : Proceeds s.params (literalElement n b s) :=
  (proceeds_outAppend (advance n s) b).andThen fun t ht => ht ▸ proceeds_emitItem t _ _

theorem proceeds_endOfBlockElement (n : Nat) : Proceeds s.params (endOfBlockElement n s) :=
  (proceeds_emitItem (advance n s) _ _).andThen fun _ ht => proceeds_next ht

theorem proceeds_copyElement (m : LenPart) (q : DistPart) : Proceeds s.params (copyElement m q s) := by
  simp only [copyElement]
  split
  · exact proceeds_raise (u := advance _ s)
  · exact (proceeds_outAppendAll (advance _ s) _).andThen fun t ht => ht ▸ proceeds_emitItem t _ _

theorem proceeds_badDistanceElement (n : Nat) : Proceeds s.params (badDistanceElement n s) :=
  proceeds_raise (u := advance n s)

theorem proceeds_matchElement (dt : HuffTable) (m : LenPart) : Proceeds s.params (matchElement dt m s) := by
  simp only [matchElement]
  split
  · unfold distanceElement
    split
    · exact proceeds_copyElement (advance m.bits s) m _
    · exact proceeds_badDistanceElement (advance m.bits s) _
  · exact proceeds_raise (u := advance _ (advance m.bits s))
  · exact proceeds_raise (u := advance _ (advance m.bits s))

theorem proceeds_exec (i : Instr) : Proceeds s.params (exec i s) := by
  cases ha : appendsBytes i with
  | true =>
    obtain ⟨b, rfl⟩ | ⟨p, hp⟩ | ⟨m, hm⟩ | ⟨q, hq⟩ := appendsBytes_cases ha
    · exact proceeds_execStbyte s b
    · rw [exec_of_litPart hp]
      exact proceeds_literalElement s _ _
    · rw [exec_of_lenPart hm]
      exact proceeds_matchElement s _ m
    · obtain hx | hx := exec_of_distPart hq s <;> rw [hx]
      · exact proceeds_copyElement s _ _
      · exact proceeds_badDistanceElement s _
  | false =>
    cases i with
    | zhdr cmf flg => exact proceeds_execZhdr s cmf flg
    | bhdrStored f | bhdrFixed f | bhdrDynamic f =>
      exact (proceeds_beginBlock s f _).andThen fun _ ht => proceeds_next ht
    | bhdrReserved f => exact proceeds_raise (u := readBhdr f 3 s)
    | sthdr len nlen => exact proceeds_execSthdr s len nlen
    | dynhdr hl hd hc cl => exact proceeds_execDynhdr s hl hd hc cl
    | clLen n v => exact proceeds_writeLengths (advance n s) _ _ _ _ _
    | cl16 n e => exact proceeds_execCl16 s n e
    | cl17 n e => exact proceeds_repeatLengths (advance (n + 3) s) _ _ _ _ _
    | cl18 n e => exact proceeds_repeatLengths (advance (n + 7) s) _ _ _ _ _
    | eob | eobDyn => exact proceeds_endOfBlockElement s _
    | badLit286 | badLit287 | badLitDyn => exact proceeds_raise (u := advance _ s)
    | ztrl a => exact proceeds_execZtrl s a
    | _ => cases ha

/-! ### The step -/

theorem proceeds_runDecoded (d : Decoded) : Proceeds s.params (runDecoded d s) := by
  cases d with
  | elem i n => exact proceeds_exec s i
  | endOfData p n => exact proceeds_next (by simp [truncated])
  | unusable n => exact proceeds_raise (u := advance n s)

theorem dynTables_params : (dynTables s).params = s.params := by
  obtain ⟨e, lt, -, h⟩ | ⟨lt, dt, -, -, h⟩ := dynTables_cases s <;> rw [h]
  exact raise_params e _

end

/-- A BUSY core is in one of the two states without an element or expects one (45_engine.md R261). -/
theorem busy_cases {s : State} (h : busy s = true) :
    s.st = .dynTables ∨ s.st = .blockEnd ∨ ∃ ctx, contextOf s = some ctx := by
  cases hst : s.st with
  | idle | done | error => simp [busy, hst] at h
  | dynTables => exact .inl rfl
  | blockEnd => exact .inr (.inl rfl)
  | symbol =>
    refine .inr (.inr (Option.isSome_iff_exists.mp ?_))
    cases htsel : s.tsel <;> simp [contextOf, hst, htsel]
  | _ => exact .inr (.inr (Option.isSome_iff_exists.mp (by simp [contextOf, hst])))

theorem proceeds_coreStep {s : State} (h : busy s = true) : Proceeds s.params (coreStep s) := by
  obtain hst | hst | ⟨ctx, hctx⟩ := busy_cases h
  · simp only [coreStep, hst]
    exact proceeds_next (dynTables_params s)
  · simp only [coreStep, hst]
    exact proceeds_next rfl
  · rw [coreStep_of_contextOf hctx]
    exact proceeds_runDecoded s _

/-- Settles O54: a BUSY core proceeds, and one that is not BUSY has no step. -/
theorem busyCoreStepsUnlessACapacityStopsIt : Obligations.BusyCoreStepsUnlessACapacityStopsIt := by
  intro s hhost
  rw [step_of_host_nil hhost]
  refine ⟨fun h => ?_, fun h hp => ?_, coreStep_of_not_busy⟩
  · obtain ⟨t, ht, -⟩ | ⟨-, hstop⟩ := proceeds_coreStep h
    · exact .inl ⟨t, ht⟩
    · exact .inr hstop
  · obtain ⟨t, ht, -⟩ | ⟨hne, -⟩ := proceeds_coreStep h
    · exact ⟨t, ht⟩
    · exact absurd hp hne

/-! ## Every decode ends -/

/-- A bound on the steps left of a decode: an element takes at least one bit, at most one step without an element
follows it, and the last step may take no bit (45_engine.md R276). -/
def stepsLeft (s : State) : Nat := 2 * avail s + (if s.st = .dynTables ∨ s.st = .blockEnd then 1 else 0) + 1

theorem busy_of_st {s : State} {c : CoreState} (h : s.st = c)
    (hc : c ≠ .idle ∧ c ≠ .done ∧ c ≠ .error := by decide) : busy s = true := by
  obtain ⟨hidle, hdone, herror⟩ := hc
  unfold busy
  split <;> simp_all

/-- A core step ends the decode or leaves fewer steps. -/
theorem CoreMove.progress {s t : State} (h : CoreMove s t) :
    t.st = .done ∨ t.st = .error ∨ Machine.busy t = true ∧ t.host = s.host ∧ stepsLeft t < stepsLeft s := by
  have helem (n : Nat) (hn : 1 ≤ n) (hbits : n ≤ avail s) (hcur : bitOffset t = bitOffset s + n)
      (hlen : t.inLen = s.inLen) : stepsLeft t < stepsLeft s := by
    have havail : avail t = avail s - n := by
      unfold avail
      omega
    unfold stepsLeft
    split <;> omega
  have hskip (k : Nat) (hk : 1 ≤ k) (hbits : padLen s + 8 * k ≤ avail s)
      (hcur : bitOffset t = bitOffset (skipBytes k s)) (hlen : t.inLen = s.inLen) : stepsLeft t < stepsLeft s := by
    rw [bitOffset_skipBytes, Nat.add_assoc] at hcur
    exact helem _ (by omega) hbits hcur hlen
  cases h with
  | fail | badLengths | badDynHeader => exact .inr (.inl (raise_st _ _))
  | ztrl => exact .inl rfl
  | zhdr cmf flg _ hbits => exact .inr (.inr ⟨rfl, by simp, hskip 2 (by omega) hbits rfl (by simp)⟩)
  | stored _ _ hbits | fixed _ _ hbits | dynamic _ _ hbits =>
    exact .inr (.inr ⟨rfl, rfl, helem 3 (by omega) hbits (bitOffset_advance 3 s) rfl⟩)
  | lengths len _ _ hbits =>
    refine .inr (.inr ⟨?_, by simp, hskip 4 (by omega) hbits rfl (by simp)⟩)
    by_cases hlen : len = 0
    · exact busy_of_st (if_pos hlen)
    · exact busy_of_st (if_neg hlen)
  | storedByte b hst hbits =>
    refine .inr (.inr ⟨?_, by simp, hskip 1 (by omega) hbits rfl (by simp)⟩)
    by_cases hlast : s.srem - 1 = 0
    · exact busy_of_st (if_pos hlast)
    · exact busy_of_st ((if_neg hlast).trans hst)
  | dynHeader _ _ _ cl _ _ hbits =>
    exact .inr (.inr ⟨rfl, rfl, helem _ (by omega) hbits (bitOffset_advance _ s) rfl⟩)
  | run n sym extra r v hst hn hbits =>
    refine .inr (.inr ⟨?_, by simp, helem n hn hbits ?_ (by simp)⟩)
    · unfold lengthsWritten lensNext
      split
      · rfl
      · exact busy_of_st hst
    · rw [bitOffset_lensNext]
      exact bitOffset_advance n s
  | literal n _ hst hn hbits | copy n _ _ _ _ _ _ _ hst hn hbits =>
    exact .inr (.inr ⟨busy_of_st hst, rfl, helem n hn hbits (bitOffset_advance n s) rfl⟩)
  | endOfBlock n hst hn hbits => exact .inr (.inr ⟨rfl, rfl, helem n hn hbits (bitOffset_advance n s) rfl⟩)
  | tables lt dt hst =>
    refine .inr (.inr ⟨rfl, rfl, ?_⟩)
    simp [stepsLeft, hst, avail, bitOffset]
  | blockEnd hst =>
    refine .inr (.inr ?_)
    cases hfinal : s.bfinal <;> simp [Machine.blockEnd, Machine.busy, stepsLeft, hst, hfinal, avail, bitOffset]

/-- The decode has ended after `k` steps, or a capacity stopped it. -/
def EndsAfter (k : Nat) (s : State) : Prop :=
  (∃ t, stepRun k s = .next t ∧ (t.st = .done ∨ t.st = .error)) ∨ ∃ r, stepRun k s = .fault r ∧ isCapacityStop r

theorem EndsAfter.after {k : Nat} {s t : State} (h : EndsAfter k t) (hs : step s = .next t) : EndsAfter (k + 1) s := by
  have hrun : stepRun (k + 1) s = stepRun k t := by rw [stepRun, hs, andThen]
  rwa [EndsAfter, hrun]

theorem exists_endsAfter {n : Nat} {s : State} (hhost : s.host = []) (hbusy : busy s = true) (hn : stepsLeft s ≤ n) :
    ∃ k ≤ n, EndsAfter k s := by
  induction n generalizing s with
  | zero => simp [stepsLeft] at hn
  | succ n ih =>
    have hstep := step_of_host_nil hhost
    obtain ⟨t, ht, -⟩ | ⟨-, r, hr, hstop⟩ := proceeds_coreStep hbusy
    · have hend : (t.st = .done ∨ t.st = .error) → ∃ k ≤ n + 1, EndsAfter k s := fun hst =>
        ⟨1, by omega, EndsAfter.after (k := 0) (.inl ⟨t, rfl, hst⟩) (hstep.trans ht)⟩
      obtain hst | hst | ⟨hbusy', hhost', hlt⟩ := (coreStep_move ht).progress
      · exact hend (.inl hst)
      · exact hend (.inr hst)
      · obtain ⟨k, hk, hends⟩ := ih (hhost'.trans hhost) hbusy' (by omega)
        exact ⟨k + 1, by omega, hends.after (hstep.trans ht)⟩
    · exact ⟨1, by omega, .inr ⟨r, by rw [stepRun, hstep, hr, andThen], hstop⟩⟩

/-- Settles O59: at bit 0 of ZHDR `stepsLeft` is twice the bits of the input and one. -/
theorem everyDecodeEnds : Obligations.EveryDecodeEnds := by
  intro s hhost hst hcur
  refine exists_endsAfter hhost (busy_of_st hst) ?_
  simp [stepsLeft, avail, hst, hcur]

end Sys2Proof.Machine

/-! # The error entry and what leaves ERROR

`raise` in full, and the moves of the host that change ST: START and RESET alone (60_exceptions.md R300, R303). -/

namespace Sys2Proof.Machine

/-- Settles O37: with a record open the writes are those of `closeRecord` with the partial flag; without one the trace
stays and BLK_OPEN is clear already. -/
theorem raiseIsTheErrorEntry : Obligations.RaiseIsTheErrorEntry := by
  intro e s
  cases hopen : s.blkOpen with
  | true =>
    rw [raise, if_pos hopen, if_pos hopen]
    rfl
  | false => simp [raise, hopen]

/-- Outside BUSY a turn the host leaves to the core changes nothing (45_engine.md R261). -/
theorem coreTurn_of_not_busy {s : State} (h : busy s = false) : coreTurn s = .next s := by
  rw [coreTurn, coreStep_of_not_busy h]

@[simp] theorem writeInLen_st (v : Nat) (s : State) : (writeInLen v s).st = s.st := by
  unfold writeInLen
  split
  · rfl
  · split <;> rfl

/-- A write of CTRL that changes ST carries START or RESET (10_state.md R29). -/
theorem ctrl_bit_of_writeCtrl_st_ne {v : Nat} {s : State} (h : (writeCtrl v s).st ≠ s.st) :
    v.testBit 0 = true ∨ v.testBit 1 = true := by
  by_contra hbits
  simp only [not_or, Bool.not_eq_true] at hbits
  obtain ⟨hstart, hreset⟩ := hbits
  exact h (congrArg State.st (writeCtrl_ignored hreset (.inl hstart)))

/-- A register write that changes ST is one of CTRL with START or RESET (10_state.md R28, R29, R31). -/
theorem ctrl_bit_of_writeHostReg_st_ne {i v : Nat} {s : State} (h : (writeHostReg i v s).st ≠ s.st) :
    i = 0x0 ∧ ((regValue s v).testBit 0 = true ∨ (regValue s v).testBit 1 = true) := by
  unfold writeHostReg at h
  split at h
  · exact ⟨rfl, ctrl_bit_of_writeCtrl_st_ne h⟩
  · exact absurd (writeInLen_st _ s) h
  · exact absurd rfl h

/-- Outside BUSY a step that changes ST is a write of CTRL with START or RESET. -/
theorem ctrl_write_of_step_st_ne {s t : State} (hbusy : busy s = false) (h : step s = .next t) (hst : t.st ≠ s.st) :
    ∃ v ms, s.host = .writeReg 0x0 v :: ms ∧ ((regValue s v).testBit 0 = true ∨ (regValue s v).testBit 1 = true) := by
  cases hhost : s.host with
  | nil =>
    rw [step_of_host_nil hhost, coreStep_of_not_busy hbusy] at h
    cases h
  | cons m ms =>
    rw [step, engineStep, hhost] at h
    cases m with
    | writeIn a b =>
      obtain ⟨-, rfl⟩ := writeInByte_next h
      exact absurd rfl hst
    | writeReg i v =>
      cases h
      obtain ⟨rfl, hbits⟩ := ctrl_bit_of_writeHostReg_st_ne (s := { s with host := ms }) hst
      exact ⟨v, ms, rfl, hbits⟩
    | coreTurn =>
      cases (coreTurn_of_not_busy (s := { s with host := ms }) hbusy).symm.trans h
      exact absurd rfl hst

/-- Settles O60: ERROR is not BUSY, so the core has no step there and only START or RESET changes ST. -/
theorem errorIsLeftOnlyByStartOrReset : Obligations.ErrorIsLeftOnlyByStartOrReset := by
  intro s t herror
  have hbusy : busy s = false := by simp [busy, herror]
  refine ⟨?_, fun h hleft => ctrl_write_of_step_st_ne hbusy h (herror ▸ hleft)⟩
  rw [coreStep_of_not_busy hbusy]
  nofun

end Sys2Proof.Machine

/-! # Capacity stops

Each operation that adds to OUT, to the block list or to a record answers the name of the capacity it lacks, and the row
that runs it stops there with that name (70_reset_and_hazards.md R331). -/

namespace Sys2Proof.Machine

/-! ## The operations -/

/-- A stop of the first operation is a stop of both. -/
theorem andThen_of_fault {o : StepResult} {r : Fault} (h : o = .fault r) (f : State → StepResult) :
    andThen o f = .fault r := by
  rw [h]
  rfl

@[simp] theorem outRoom_skipBytes (n k : Nat) (s : State) : outRoom k (skipBytes n s) ↔ outRoom k s := by simp [outRoom]

@[simp] theorem itemRoom_skipBytes (n : Nat) (s : State) : itemRoom (skipBytes n s) ↔ itemRoom s := by
  simp [itemRoom, openItems]

theorem outAppend_of_full {s : State} (hfull : ¬ outRoom 1 s) (b : Byte) : outAppend b s = .fault .outFull := by
  refine if_pos (eq_true_of_ne_false fun hroom => hfull fun k hk => ?_)
  obtain rfl : k = 0 := Nat.lt_one_iff.mp hk
  exact hroom

/-- Without room for all of its bytes, a list of appends stops at the first that does not fit. -/
theorem outAppendAll_of_full {bs : List Byte} {len : Nat} {s : State} (hlen : bs.length = len)
    (hfull : ¬ outRoom len s) : outAppendAll bs s = .fault .outFull := by
  subst hlen
  induction bs generalizing s with
  | nil => exact absurd (fun k hk => absurd hk (Nat.not_lt_zero k)) hfull
  | cons b bs ih =>
    by_cases hfirst : outRoom 1 s
    · have hrest : ¬ outRoom bs.length (addBytes [b] s) := fun hrest => hfull fun k hk => by
        cases k with
        | zero => exact hfirst 0 Nat.one_pos
        | succ k =>
          have hk' := hrest k (Nat.lt_of_succ_lt_succ hk)
          rwa [Nat.add_right_comm] at hk'
      rw [outAppendAll, outAppend_of_room hfirst]
      exact ih hrest
    · exact andThen_of_fault (outAppend_of_full hfirst b) _

theorem emitItem_of_full {s : State} (hfull : ¬ itemRoom s) (k : ItemKind) (start : Nat) :
    emitItem k start s = .fault .itemsFull := if_pos (eq_true_of_ne_false hfull)

theorem appendRecord_of_blocksFull {s : State} (hfull : Params.reached s.params.maxBlocks s.blkCount = true)
    (r : BlockRecord) : appendRecord r s = .fault .blocksFull := if_pos hfull

/-- A record that brings an item stops where a record may hold none (log 11). -/
theorem appendRecord_of_itemsFull {s : State} (hblocks : Params.reached s.params.maxBlocks s.blkCount = false)
    (hfull : Params.reached s.params.maxItems 0 = true) {r : BlockRecord} (hr : r.items ≠ []) :
    appendRecord r s = .fault .itemsFull := by
  rw [appendRecord, if_neg (Bool.eq_false_iff.mp hblocks), if_pos ⟨hr, hfull⟩]

/-! ## The block list full -/

section
variable {s : State} (hfull : Params.reached s.params.maxBlocks s.blkCount = true)
include hfull

theorem beginBlock_of_blocksFull (f : Bool) (btype : BitVec 2) : beginBlock f btype s = .fault .blocksFull :=
  andThen_of_fault (appendRecord_of_blocksFull (by exact hfull) _) _

theorem execZhdr_of_blocksFull (c f : Byte) : execZhdr c f s = .fault .blocksFull :=
  andThen_of_fault (appendRecord_of_blocksFull (by simpa using hfull) _) _

theorem execZtrl_of_blocksFull (a : BitVec 32) : execZtrl a s = .fault .blocksFull :=
  andThen_of_fault (appendRecord_of_blocksFull (by simpa using hfull) _) _

end

/-! ## No item in a pseudo-block -/

section
variable {s : State} (hblocks : Params.reached s.params.maxBlocks s.blkCount = false)
  (hfull : Params.reached s.params.maxItems 0 = true)
include hblocks hfull

theorem execZhdr_of_itemsFull (c f : Byte) : execZhdr c f s = .fault .itemsFull :=
  andThen_of_fault
    (appendRecord_of_itemsFull (by simpa using hblocks) (by simpa using hfull) (List.cons_ne_nil _ _)) _

theorem execZtrl_of_itemsFull (a : BitVec 32) : execZtrl a s = .fault .itemsFull :=
  andThen_of_fault
    (appendRecord_of_itemsFull (by simpa using hblocks) (by simpa using hfull) (List.cons_ne_nil _ _)) _

end

/-! ## OUT full -/

section
variable {s : State} (hfull : ¬ outRoom 1 s)
include hfull

theorem literalElement_of_outFull (n : Nat) (b : Byte) : literalElement n b s = .fault .outFull :=
  andThen_of_fault (outAppend_of_full (by exact hfull) b) _

theorem execStbyte_of_outFull (b : Byte) : execStbyte b s = .fault .outFull :=
  andThen_of_fault (outAppend_of_full (mt (outRoom_skipBytes 1 1 s).mp hfull) b) _

end

/-! ## The open record full -/

section
variable {s : State} (hfull : ¬ itemRoom s)
include hfull

theorem literalElement_of_itemsFull (hout : outRoom 1 s) (n : Nat) (b : Byte) :
    literalElement n b s = .fault .itemsFull := by
  rw [literalElement, outAppend_of_room (by exact hout)]
  exact emitItem_of_full (by exact hfull) _ _

theorem execStbyte_of_itemsFull (hout : outRoom 1 s) (b : Byte) : execStbyte b s = .fault .itemsFull := by
  rw [execStbyte, outAppend_of_room ((outRoom_skipBytes 1 1 s).mpr hout)]
  have hread : ¬ itemRoom (skipBytes 1 s) := mt (itemRoom_skipBytes 1 s).mp hfull
  exact andThen_of_fault (emitItem_of_full (by exact hread) _ _) _

theorem endOfBlockElement_of_itemsFull (n : Nat) : endOfBlockElement n s = .fault .itemsFull :=
  andThen_of_fault (emitItem_of_full (by exact hfull) _ _) _

theorem execDynhdr_of_itemsFull (h d : BitVec 5) (c : BitVec 4) (cl : List (BitVec 3)) :
    execDynhdr h d c cl s = .fault .itemsFull :=
  andThen_of_fault (emitItem_of_full (by exact hfull) _ _) _

theorem writeLengths_of_itemsFull (sym : Nat) (extra : Option Nat) (r : Nat) (v : BitVec 4) (start n : Nat) :
    writeLengths sym extra r v start (advance n s) = .fault .itemsFull :=
  andThen_of_fault (emitItem_of_full (by exact hfull) _ _) _

theorem repeatLengths_of_itemsFull {r : Nat} (hfits : s.lcnt.toNat + r ≤ s.hlit.toNat + s.hdist.toNat)
    (sym extra : Nat) (v : BitVec 4) (start n : Nat) :
    repeatLengths sym extra r v start (advance n s) = .fault .itemsFull :=
  (if_neg (Nat.not_lt.mpr hfits)).trans (writeLengths_of_itemsFull hfull _ _ _ _ _ _)

end

/-! ## MATCH -/

section
variable {m : LenPart} {p : DistPart} {s : State} (hsym : p.sym < 30) (hdist : distBase p.sym + p.extra ≤ s.outLen)
include hsym hdist

/-- A copy whose distance lies inside the output is its appends and its item. -/
theorem distanceElement_of_inside :
    distanceElement m p s =
      let stop := advance (p.codeBits + distExtra p.sym) s
      let len := lenBase m.sym + m.extra
      let dist := distBase p.sym + p.extra
      andThen (outAppendAll (resolve len dist stop) stop)
        (emitItem (.backReference len dist (resolve len dist stop) m.sym m.extra p.sym p.extra s.outLen)
          (bitOffset s - m.bits)) :=
  (if_pos hsym).trans (if_neg (Nat.not_lt.mpr hdist))

theorem distanceElement_of_outFull (hfull : ¬ outRoom (lenBase m.sym + m.extra) s) :
    distanceElement m p s = .fault .outFull := by
  rw [distanceElement_of_inside hsym hdist]
  exact andThen_of_fault (outAppendAll_of_full (resolve_length _ _ _) (by exact hfull)) _

theorem distanceElement_of_itemsFull (hout : outRoom (lenBase m.sym + m.extra) s) (hfull : ¬ itemRoom s) :
    distanceElement m p s = .fault .itemsFull := by
  rw [distanceElement_of_inside hsym hdist]
  simp only [outAppendAll_of_room (resolve_length _ _ _) (show outRoom _ (advance _ s) from hout), andThen]
  exact emitItem_of_full (by exact hfull) _ _

end

/-! ## The turn left to the core -/

/-- A turn the host leaves to a core that has no step passes, and nothing else changes (log 1). -/
theorem step_coreTurn_of_fault {s : State} {ms : List HostMove} {r : Fault} (hhost : s.host = .coreTurn :: ms)
    (h : coreStep { s with host := ms } = .fault r) : step s = .next { s with host := ms } := by
  simp only [step, engineStep, hhost, hostMove, coreTurn, h]

/-- Settles O53: each row is the operation that lacks its capacity, behind those that have theirs. -/
theorem capacityStopsAreWhole : Obligations.CapacityStopsAreWhole := by
  intro s
  refine ⟨fun hblocks => ⟨fun f => ⟨?_, ?_, ?_⟩, execZhdr_of_blocksFull hblocks, execZtrl_of_blocksFull hblocks⟩,
    fun hblocks hitems => ⟨execZhdr_of_itemsFull hblocks hitems, execZtrl_of_itemsFull hblocks hitems⟩,
    fun hout => ⟨execStbyte_of_outFull hout, fun i n b hi => ?_⟩, fun hitem => ?_, fun i m p hw hp hsym hdist => ?_,
    fun i m d k de hm hc hsym hdist => ?_, fun ms r => step_coreTurn_of_fault⟩
  · exact andThen_of_fault (beginBlock_of_blocksFull hblocks f 0) _
  · exact andThen_of_fault (beginBlock_of_blocksFull hblocks f 1) _
  · exact andThen_of_fault (beginBlock_of_blocksFull hblocks f 2) _
  · rw [exec_of_litPart hi, literalElement_of_outFull hout]
  · refine ⟨fun hout => ⟨execStbyte_of_itemsFull hitem hout, fun i n b hi => ?_⟩,
      endOfBlockElement_of_itemsFull hitem 7, endOfBlockElement_of_itemsFull hitem, execDynhdr_of_itemsFull hitem,
      fun n v => ?_, fun n e hlcnt hfits => ?_, fun n e hfits => ?_, fun n e hfits => ?_⟩
    · rw [exec_of_litPart hi, literalElement_of_itemsFull hitem hout]
    · exact writeLengths_of_itemsFull hitem _ _ _ v _ n
    · exact (if_neg hlcnt).trans (repeatLengths_of_itemsFull hitem hfits _ _ _ _ _)
    · exact repeatLengths_of_itemsFull hitem hfits _ _ _ _ _
    · exact repeatLengths_of_itemsFull hitem hfits _ _ _ _ _
  · rw [exec_of_distPart_wellFormed hw hp]
    exact ⟨distanceElement_of_outFull hsym hdist, distanceElement_of_itemsFull hsym hdist⟩
  · rw [exec_lenRow_of_coded hm hc]
    exact ⟨fun hout => distanceElement_of_outFull (by exact hsym) (by exact hdist) (by exact hout),
      fun hout hitem => distanceElement_of_itemsFull (by exact hsym) (by exact hdist) (by exact hout) (by exact hitem)⟩

end Sys2Proof.Machine
